-- ==== Sys2Proof/Word.lean ====
section
/-! DEFINITION. The word types of the unit (R5, R7): 32-bit words, bytes, 9-bit window offsets. -/

namespace Sys2Proof

/-- A word: 32 bits, unsigned (R7). -/
abbrev Word := BitVec 32

/-- A byte of a byte sequence (R10). -/
abbrev Byte := BitVec 8

/-- A byte offset in the 512-byte register window (R50). -/
abbrev Offset := BitVec 9

end Sys2Proof
end

