-- ==== Sys2Proof/Syntax.lean ====
section
/-! DEFINITION. The commands of the unit (R74): one constructor per row of spec/opcode_table.json. -/

namespace Sys2Proof

/-- A command, what a word written to `CMD` encodes (R13, R70). -/
inductive Instr where
  /-- `NOP` (R170). -/
  | nop
  /-- `CLRERR` (R171). -/
  | clrerr
  /-- `CLEAR` (R172). -/
  | clear
  /-- `QR a,b,c,d` (R91): four indices into `X`. -/
  | qr (a b c d : Fin 16)
  /-- `DROUND` (R102). -/
  | dround
  /-- `PERMUTE` (R103). -/
  | permute
  /-- `CC20_BLOCK` (R114). -/
  | cc20Block
  /-- `HCC20` (R121). -/
  | hcc20
  /-- `CTR_START` (R132). -/
  | ctrStart
  /-- `XCC_START` (R152). -/
  | xccStart
  /-- `BLK_XOR` (R133). -/
  | blkXor
  deriving DecidableEq, Repr

end Sys2Proof
end

