-- ==== Sys2Proof/WellFormed.lean ====
section
/-! DEFINITION. Which commands are legal: the one constraint the spec puts on operands is that the four indices of
`QR` are pairwise distinct (R73, R75). -/

namespace Sys2Proof

/-- A command the unit has: for `QR` the indices are pairwise distinct (R75); format N has no operand. -/
def Instr.wellFormed : Instr → Bool
  | .nop => true
  | .clrerr => true
  | .clear => true
  | .qr a b c d => a != b && a != c && a != d && b != c && b != d && c != d
  | .dround => true
  | .permute => true
  | .cc20Block => true
  | .hcc20 => true
  | .ctrStart => true
  | .xccStart => true
  | .blkXor => true

end Sys2Proof
end

