-- ==== Sys2Proof/Decode.lean ====
section
/-! DEFINITION. Decoding and encoding of command words (R70 to R77): the fields of a word, the total decoder of R76
with its rejections by name, the encoder of R73 and R74, and the opcode map of R74 as match and mask rows. -/

namespace Sys2Proof

/-- Why a word is no command (R75). The unit rejects all three with `E_ILLCMD`. -/
inductive DecodeError where
  /-- `OPC` is none of the eleven opcodes. -/
  | unknownOpcode
  /-- A reserved bit is set: 31:8 in format N, 31:24 in format Q. -/
  | reservedBits
  /-- A `QR` word whose indices are not pairwise distinct. -/
  | indicesNotDistinct
  deriving DecidableEq, Repr

/-- `OPC`, bits 7:0 in both formats (R70). -/
def opcodeOf (w : Word) : BitVec 8 := w.extractLsb' 0 8

/-- The 4-bit index field whose lowest bit is `lo`, used directly as an index (R73). -/
def indexField (w : Word) (lo : Nat) : Fin 16 := (w.extractLsb' lo 4).toFin

/-- The four indices of `QR` are pairwise distinct (R75). -/
def pairwiseDistinct (a b c d : Fin 16) : Bool :=
  a != b && a != c && a != d && b != c && b != d && c != d

/-- The format-N command of an opcode (R74). -/
def formatN (opc : BitVec 8) : Option Instr :=
  if opc = 0x00#8 then some .nop
  else if opc = 0x01#8 then some .clrerr
  else if opc = 0x02#8 then some .clear
  else if opc = 0x11#8 then some .dround
  else if opc = 0x12#8 then some .permute
  else if opc = 0x20#8 then some .cc20Block
  else if opc = 0x21#8 then some .hcc20
  else if opc = 0x30#8 then some .ctrStart
  else if opc = 0x31#8 then some .xccStart
  else if opc = 0x32#8 then some .blkXor
  else none

/-- Format Q (R72): the word has opcode `0x10`. -/
def decodeQ (w : Word) : Except DecodeError Instr :=
  if w.extractLsb' 24 8 ≠ 0#8 then .error .reservedBits
  else if pairwiseDistinct (indexField w 8) (indexField w 12) (indexField w 16) (indexField w 20) then
    .ok (.qr (indexField w 8) (indexField w 12) (indexField w 16) (indexField w 20))
  else .error .indicesNotDistinct

/-- Format N (R71): the word has another opcode. -/
def decodeN (w : Word) : Except DecodeError Instr :=
  match formatN (opcodeOf w) with
  | none => .error .unknownOpcode
  | some i => if w.extractLsb' 8 24 ≠ 0#24 then .error .reservedBits else .ok i

/-- The decoder (R76): total on all 2^32 words, and independent of the state. -/
def decode (w : Word) : Except DecodeError Instr :=
  if opcodeOf w = 0x10#8 then decodeQ w else decodeN w

/-- The word of `QR a,b,c,d` (R73). -/
def encodeQ (a b c d : Fin 16) : Word :=
  0x10#32 ||| (BitVec.ofNat 32 a <<< 8) ||| (BitVec.ofNat 32 b <<< 12) |||
    (BitVec.ofNat 32 c <<< 16) ||| (BitVec.ofNat 32 d <<< 20)

/-- The word that encodes a command (R73, R74). -/
def encode : Instr → Word
  | .nop => 0x00000000#32
  | .clrerr => 0x00000001#32
  | .clear => 0x00000002#32
  | .qr a b c d => encodeQ a b c d
  | .dround => 0x00000011#32
  | .permute => 0x00000012#32
  | .cc20Block => 0x00000020#32
  | .hcc20 => 0x00000021#32
  | .ctrStart => 0x00000030#32
  | .xccStart => 0x00000031#32
  | .blkXor => 0x00000032#32

/-- A row of the opcode map of R74. -/
structure OpRow where
  mnemonic : String
  pattern : Word
  mask : Word
  deriving DecidableEq, Repr

/-- The row of R74 a command belongs to: its mnemonic, match and mask. -/
def opRow : Instr → OpRow
  | .nop => ⟨"NOP", 0x00000000#32, 0xFFFFFFFF#32⟩
  | .clrerr => ⟨"CLRERR", 0x00000001#32, 0xFFFFFFFF#32⟩
  | .clear => ⟨"CLEAR", 0x00000002#32, 0xFFFFFFFF#32⟩
  | .qr _ _ _ _ => ⟨"QR", 0x00000010#32, 0xFF0000FF#32⟩
  | .dround => ⟨"DROUND", 0x00000011#32, 0xFFFFFFFF#32⟩
  | .permute => ⟨"PERMUTE", 0x00000012#32, 0xFFFFFFFF#32⟩
  | .cc20Block => ⟨"CC20_BLOCK", 0x00000020#32, 0xFFFFFFFF#32⟩
  | .hcc20 => ⟨"HCC20", 0x00000021#32, 0xFFFFFFFF#32⟩
  | .ctrStart => ⟨"CTR_START", 0x00000030#32, 0xFFFFFFFF#32⟩
  | .xccStart => ⟨"XCC_START", 0x00000031#32, 0xFFFFFFFF#32⟩
  | .blkXor => ⟨"BLK_XOR", 0x00000032#32, 0xFFFFFFFF#32⟩

/-- The eleven rows of R74, in the table's order. -/
def opcodeTable : List OpRow :=
  [opRow .nop, opRow .clrerr, opRow .clear, opRow (.qr 0 1 2 3), opRow .dround, opRow .permute,
   opRow .cc20Block, opRow .hcc20, opRow .ctrStart, opRow .xccStart, opRow .blkXor]

/-- A word selects a row iff `w & mask = match` (R74). -/
def selects (r : OpRow) (w : Word) : Bool := w &&& r.mask == r.pattern

/-- The word of an instruction given as a number, bit 0 its least significant bit, only its lowest `nbits` bits
given and the rest 0. A command is one word carried whole by the port (R55, R70). -/
def tableWord (nbits w : Nat) : Word := BitVec.ofNat 32 (w % 2 ^ nbits)

/-- What the decoder reads from the word numbered as spec/opcode_table.json numbers its bits. -/
def decodeTableWord (nbits w : Nat) : Option Instr :=
  match decode (tableWord nbits w) with
  | .ok i => some i
  | .error _ => none

end Sys2Proof
end

