-- ==== Sys2Proof/Machine/Arith.lean ====
section
/-! DEFINITION. The word arithmetic of R9, the byte and word conversions of R10, and the byte mask of R134. -/

namespace Sys2Proof.Machine

/-- `add32(a, b) = (a + b) mod 2^32` (R9). -/
def add32 (a b : Word) : Word := a + b

/-- `xor32(a, b) = a ^ b` (R9). -/
def xor32 (a b : Word) : Word := a ^^^ b

/-- `rotl32(x, n)` by the formula of R9, used with `n` in 16, 12, 8, 7 only. -/
def rotl32 (x : Word) (n : Nat) : Word := (x <<< n) ||| (x >>> (32 - n))

/-- `le32(b0, b1, b2, b3)`: four bytes to a word, little-endian (R10). -/
def le32 (b0 b1 b2 b3 : Byte) : Word :=
  b0.setWidth 32 ||| (b1.setWidth 32 <<< 8) ||| (b2.setWidth 32 <<< 16) ||| (b3.setWidth 32 <<< 24)

/-- `byte_k(w)`: byte `k` of a word, `k` in 0..3 (R10). -/
def byteK (k : Nat) (w : Word) : Byte := (w >>> (8 * k)).setWidth 8

/-- The four bytes of a word, byte 0 first (R10). -/
def bytesOfWord (w : Word) : List Byte := [byteK 0 w, byteK 1 w, byteK 2 w, byteK 3 w]

/-- `words_le(s)`: a byte sequence whose length is a multiple of 4, as words (R10). A last group of fewer than four
bytes, which R10 excludes, is dropped (log 9). -/
def wordsLe : List Byte → List Word
  | b0 :: b1 :: b2 :: b3 :: rest => le32 b0 b1 b2 b3 :: wordsLe rest
  | _ => []

/-- `bytes_le(ws)`: the byte sequence whose byte `4j+k` is `byte_k(ws[j])` (R10). -/
def bytesLe (ws : List Word) : List Byte := ws.flatMap bytesOfWord

/-- Byte lane `k` of word `j` in the mask of a block of `n` bytes (R134). -/
def laneMask (n j k : Nat) : Word := if 4 * j + k < n then 0xFF#32 <<< (8 * k) else 0

/-- `bytemask(n, j)`: the byte lanes of word `j` whose position in the block is below `n` (R134). -/
def bytemask (n j : Nat) : Word := laneMask n j 0 ||| laneMask n j 1 ||| laneMask n j 2 ||| laneMask n j 3

end Sys2Proof.Machine
end

