-- ==== Sys2Proof/Machine/Cipher.lean ====
section
/-! DEFINITION. The pure functions of the datapath: quarter-round (R90, R92), double round and permutation (R100,
R101), ChaCha20 block function (R110 to R112), HChaCha20 (R120). None reads or writes the state (R37). -/

namespace Sys2Proof.Machine

/-- The four words a quarter-round works on (R90). -/
structure Quad where
  a : Word
  b : Word
  c : Word
  d : Word
  deriving DecidableEq, Repr

/-- The quarter-round (R90), its twelve statements in the order written. -/
def qr (a b c d : Word) : Quad :=
  let a := add32 a b; let d := xor32 d a; let d := rotl32 d 16
  let c := add32 c d; let b := xor32 b c; let b := rotl32 b 12
  let a := add32 a b; let d := xor32 d a; let d := rotl32 d 8
  let c := add32 c d; let b := xor32 b c; let b := rotl32 b 7
  ⟨a, b, c, d⟩

/-- The quarter-round in place at four pairwise distinct indices of a 16-word array (R92). Irreducible, so that no
proof unfolds it unasked. -/
@[irreducible] def qrAt (v : Vector Word 16) (i j k l : Fin 16) : Vector Word 16 :=
  let q := qr v[i] v[j] v[k] v[l]
  (((v.set i q.a).set j q.b).set k q.c).set l q.d

/-- The four column quarter-rounds (R100). -/
def columnRound (v : Vector Word 16) : Vector Word 16 :=
  qrAt (qrAt (qrAt (qrAt v 0 4 8 12) 1 5 9 13) 2 6 10 14) 3 7 11 15

/-- The four diagonal quarter-rounds (R100). -/
def diagonalRound (v : Vector Word 16) : Vector Word 16 :=
  qrAt (qrAt (qrAt (qrAt v 0 5 10 15) 1 6 11 12) 2 7 8 13) 3 4 9 14

/-- The double round: the columns, then the diagonals (R100). -/
def dround (v : Vector Word 16) : Vector Word 16 := diagonalRound (columnRound v)

/-- The permutation: ten double rounds (R101). Irreducible, so that no proof unfolds its 80 quarter-rounds unasked. -/
@[irreducible] def permute (v : Vector Word 16) : Vector Word 16 := dround^[10] v

/-- The constant words "expa", "nd 3", "2-by", "te k" (R110). -/
def constants : Vector Word 4 := #v[0x61707865#32, 0x3320646E#32, 0x79622D32#32, 0x6B206574#32]

/-- A 16-word initial state: the constants, the key, then four more words (R111, R120). -/
def initState (k : Vector Word 8) (w12 w13 w14 w15 : Word) : Vector Word 16 :=
  #v[constants[0], constants[1], constants[2], constants[3], k[0], k[1], k[2], k[3], k[4], k[5], k[6], k[7],
     w12, w13, w14, w15]

/-- `cc20_init(k, ctr, n)` (R111). -/
def cc20Init (k : Vector Word 8) (ctr : Word) (n : Vector Word 3) : Vector Word 16 :=
  initState k ctr n[0] n[1] n[2]

/-- `cc20_block(k, ctr, n)`: the permuted state added word by word to the initial state (R112). -/
def cc20Block (k : Vector Word 8) (ctr : Word) (n : Vector Word 3) : Vector Word 16 :=
  Vector.zipWith add32 (cc20Init k ctr n) (permute (cc20Init k ctr n))

/-- The initial state of HChaCha20: no counter, four nonce words (R120). -/
def hcc20Init (k : Vector Word 8) (n : Vector Word 4) : Vector Word 16 :=
  initState k n[0] n[1] n[2] n[3]

/-- Words 0..3 and 12..15 of a 16-word array (R120). -/
def outerRows (w : Vector Word 16) : Vector Word 8 :=
  #v[w[0], w[1], w[2], w[3], w[12], w[13], w[14], w[15]]

/-- `hchacha20(k, n)`: the outer rows of the permuted state, with no feed-forward (R120). -/
def hchacha20 (k : Vector Word 8) (n : Vector Word 4) : Vector Word 8 := outerRows (permute (hcc20Init k n))

/-- The data block XORed with a keystream block, lane by lane, the lanes at positions `n` and above zero (R133,
R134). -/
def xorBlock (din ks : Vector Word 16) (n : Nat) : Vector Word 16 :=
  Vector.ofFn fun j : Fin 16 => xor32 din[j] ks[j] &&& bytemask n j

end Sys2Proof.Machine
end

