-- ==== Sys2Proof/Machine/Keystream.lean ====
section
/-! DEFINITION. The functions the streams of the unit realise block by block: the keystream (R130), the
counter-mode engine (R131), the nonce splitter (R151) and XChaCha20 (R150). The unit does not call them; statements
compare the unit with them. -/

namespace Sys2Proof.Machine

/-- `ks_block(k, n, c0, i)`: 64 keystream bytes (R130). -/
def ksBlock (k : Vector Word 8) (n : Vector Word 3) (c0 : Word) (i : Nat) : List Byte :=
  bytesLe (cc20Block k (add32 c0 (BitVec.ofNat 32 i)) n).toList

/-- `ceil(L/64)`: the number of 64-byte blocks that hold `L` bytes (R130). -/
def blockCount (l : Nat) : Nat := (l + 63) / 64

/-- `keystream(k, n, c0, L)`: the blocks 0 to `ceil(L/64) - 1` in order (R130). -/
def keystream (k : Vector Word 8) (n : Vector Word 3) (c0 : Word) (l : Nat) : List Byte :=
  (List.range (blockCount l)).flatMap (ksBlock k n c0)

/-- `ctr_xor(k, n, c0, data)`: data XOR keystream, the excess keystream discarded (R131). -/
def ctrXor (k : Vector Word 8) (n : Vector Word 3) (c0 : Word) (data : List Byte) : List Byte :=
  List.zipWith (fun d s => d ^^^ s) data (keystream k n c0 data.length)

/-- The first four nonce words, the HChaCha20 nonce (R151). -/
def hchachaNonce (n : Vector Word 6) : Vector Word 4 := #v[n[0], n[1], n[2], n[3]]

/-- The inner ChaCha20 nonce: a zero word, then the last two nonce words (R151). -/
def innerNonce (n : Vector Word 6) : Vector Word 3 := #v[0, n[4], n[5]]

/-- The first three nonce words, the ChaCha20 nonce (R23). -/
def chachaNonce (n : Vector Word 6) : Vector Word 3 := #v[n[0], n[1], n[2]]

/-- `xchacha20(k, N, data, c0)` (R150). -/
def xchacha20 (k : Vector Word 8) (n : Vector Word 6) (data : List Byte) (c0 : Word) : List Byte :=
  ctrXor (hchacha20 k (hchachaNonce n)) (innerNonce n) c0 data

end Sys2Proof.Machine
end

