-- ==== Sys2Proof/Config.lean ====
section
/-! DEFINITION. What the spec leaves to an implementation or a platform: the open parameters of R6 (D2, D22, D25).
No rule depends on one, so nothing in the model of the unit reads them. Three are opaque: no value of theirs can be
proved (log 6). `NUM_INSTANCES` is an argument of Machine/Platform.lean; its default stands here. -/

namespace Sys2Proof.Config

/-- `BUS_PROTOCOL` (R61, D2): which cycle-level handshake the ports use, as a number a platform gives it. -/
opaque busProtocol : Nat

/-- `BASE` (R50): where the window sits in a platform's address map. -/
opaque base : Nat

/-- `LATENCY(op)` (R208, D22): how many clock cycles a transaction takes, by its write flag, offset and data. -/
opaque latency : Bool → Offset → Word → Nat

/-- The default of `NUM_INSTANCES`, how many independent units a platform instantiates (R6, D25). -/
def numInstancesDefault : Nat := 1

end Sys2Proof.Config
end

