-- ==== Sys2Proof/Machine/State.lean ====
section
/-! DEFINITION. The state of the unit (R20 to R39), what the host can present to it (R52, R53, R61, R200), what it
answers (R61), and the reset state (R39, R200). Plain data. -/

namespace Sys2Proof.Machine

/-- `PHASE` (R35): whether a stream context is live. -/
inductive Phase where
  | idle
  | stream
  deriving DecidableEq, Repr

/-- The access size of a transaction, `req_size` (R61): 1, 2 or 4 bytes, or the code 3, which is "not 4". -/
inductive AccessSize where
  | one
  | two
  | four
  | other
  deriving DecidableEq, Repr

/-- A transaction of the host on the register window (R52, R53). -/
inductive Transaction where
  /-- `MemRead(addr, n)`. -/
  | read (addr : Offset) (size : AccessSize)
  /-- `MemWrite(addr, n, v)`. -/
  | write (addr : Offset) (size : AccessSize) (v : Word)
  deriving DecidableEq, Repr

/-- What the outside world can do to the unit (R61, R200, R204): assert `rst_n`, or present a transaction. -/
inductive HostInput where
  /-- `rst_n` is held low and released (R200). -/
  | reset
  /-- A request is presented and accepted. -/
  | request (t : Transaction)
  deriving DecidableEq, Repr

/-- The response to a transaction: `rsp_err` and `rsp_rdata` (R61). -/
structure Response where
  /-- `true` is `ERR`, `false` is `OK`. -/
  err : Bool
  /-- The read value; 0 on `ERR` and on writes. -/
  rdata : Word
  deriving DecidableEq, Repr

/-- Why the unit could stop: there is no such reason. "Every transaction on every state has exactly one defined
outcome (`OK` with its effect, or `ERR` with `ERRCODE`)" (93_implementation_defined.md), and a rejection is a next
state (R181), so this type has no constructor and nothing raises it. -/
inductive Fault where
  deriving DecidableEq, Repr

/-- Why the model could give a command no meaning. -/
inductive Refusal where
  /-- A command that has no meaning yet: raised by an arm of `exec` alone, and by none today (safe). -/
  | notModelled (mnemonic : String)
  deriving DecidableEq, Repr

/-- The state of the unit: the sixteen pieces of R20, then the response port and the host inputs to come. -/
structure State where
  /-- `X[0..15]`, the working state of `QR`, `DROUND`, `PERMUTE` (R21). -/
  x : Vector Word 16
  /-- `KEY[0..7]` (R22). -/
  key : Vector Word 8
  /-- `KEYV`: which key words were written since reset or `CLEAR` (R22). -/
  keyv : BitVec 8
  /-- `NONCE[0..5]` (R23). -/
  nonce : Vector Word 6
  /-- `NONCEV`: which nonce words were written since reset or `CLEAR` (R23). -/
  noncev : BitVec 6
  /-- `OUT[0..15]`, the result of the last block command (R24). -/
  out : Vector Word 16
  /-- `DIN[0..15]`, the input data block (R25). -/
  din : Vector Word 16
  /-- `DOUT[0..15]`, the output data block (R26). -/
  dout : Vector Word 16
  /-- `ICTR`, the initial counter (R31). -/
  ictr : Word
  /-- `LEN`, the byte length of the next stream (R32). -/
  len : Word
  /-- `CTR`, the block counter of the next `BLK_XOR` (R33). -/
  ctr : Word
  /-- `REM`, the bytes of the stream not yet processed (R34). -/
  rem : Word
  /-- `ERRCODE`, the code of the first rejection since it was last 0 (R38). -/
  errcode : BitVec 4
  /-- `PHASE` (R35). -/
  phase : Phase
  /-- `AKEY[0..7]`, the hidden key of the live stream (R36). -/
  akey : Vector Word 8
  /-- `ANONCE[0..2]`, the hidden nonce of the live stream (R36). -/
  anonce : Vector Word 3
  /-- The response port: the response to the latest transaction, `none` where `rsp_valid` is low (R61, log 2). -/
  rsp : Option Response
  /-- What the host will present, in arrival order (R51, R58, R61, log 1). -/
  inputs : List HostInput
  deriving DecidableEq, Repr

/-- The three outcomes of a meaning and of a step. -/
abbrev Result := Host.Outcome State Fault Refusal

/-- The reset state (R39, R200): every register 0, no valid bit, `PHASE = IDLE`, no error recorded; no response is
presented and no input is pending (log 1, log 2). -/
def State.reset : State where
  x := Vector.replicate 16 0
  key := Vector.replicate 8 0
  keyv := 0
  nonce := Vector.replicate 6 0
  noncev := 0
  out := Vector.replicate 16 0
  din := Vector.replicate 16 0
  dout := Vector.replicate 16 0
  ictr := 0
  len := 0
  ctr := 0
  rem := 0
  errcode := 0
  phase := .idle
  akey := Vector.replicate 8 0
  anonce := Vector.replicate 3 0
  rsp := none
  inputs := []

end Sys2Proof.Machine
end

