-- ==== Sys2Proof/Machine/Flags.lean ====
section
/-! DEFINITION. The flags of the unit: the `PHASE` bit (R35), the valid masks `KEYV` and `NONCEV` (R22, R23) and the
`STATUS` view of them and `ERRCODE` (R29). There is no arithmetic flag (R38). -/

namespace Sys2Proof.Machine

/-- `PHASE` as a bit: `IDLE` 0, `STREAM` 1 (R35). -/
def phaseBit : Phase → BitVec 1
  | .idle => 0
  | .stream => 1

/-- `STATUS = zext_32(PHASE) | (ERRCODE << 4) | (KEYV << 8) | (NONCEV << 16)` (R29). -/
def statusView (s : State) : Word :=
  (phaseBit s.phase).setWidth 32 ||| (s.errcode.setWidth 32 <<< 4) ||| (s.keyv.setWidth 32 <<< 8) |||
    (s.noncev.setWidth 32 <<< 16)

/-- A mask with bit `i` set (R22, R23). -/
def setValid {w : Nat} (mask : BitVec w) (i : Nat) : BitVec w := mask ||| (1#w <<< i)

/-- The key is complete iff `KEYV = 0xFF` (R22). -/
def keyComplete (s : State) : Bool := s.keyv == 0xFF#8

/-- The nonce of a command that uses `NONCE[0..m-1]` is complete iff `NONCEV[m-1:0]` is all ones (R23). -/
def nonceComplete (m : Nat) (s : State) : Bool := s.noncev.extractLsb' 0 m == BitVec.allOnes m

/-- `PHASE` after a start with this `LEN`: a stream is live unless it is empty (R35). -/
def phaseAfterStart (len : Word) : Phase := if len = 0 then .idle else .stream

end Sys2Proof.Machine
end

