-- ==== Sys2Proof/Machine/Ops.lean ====
section
/-! DEFINITION. The named operations on the state: one update per register group, the responses (R61), the unit's
one exception `Reject` (R181) and its acknowledgement (R187). -/

namespace Sys2Proof.Machine

/-- `X <- v`. -/
def setX (v : Vector Word 16) (s : State) : State := { s with x := v }

/-- `OUT <- v`. -/
def setOut (v : Vector Word 16) (s : State) : State := { s with out := v }

/-- `DIN <- v`. -/
def setDin (v : Vector Word 16) (s : State) : State := { s with din := v }

/-- `DOUT <- v`. -/
def setDout (v : Vector Word 16) (s : State) : State := { s with dout := v }

/-- `ICTR <- v`. -/
def setIctr (v : Word) (s : State) : State := { s with ictr := v }

/-- `LEN <- v`. -/
def setLen (v : Word) (s : State) : State := { s with len := v }

/-- `CTR <- c ; REM <- r`: how far a stream has advanced (R33, R34). -/
def setPosition (c r : Word) (s : State) : State := { s with ctr := c, rem := r }

/-- `PHASE <- p ; AKEY <- k ; ANONCE <- n`: the stream context (R35, R36). -/
def setContext (p : Phase) (k : Vector Word 8) (n : Vector Word 3) (s : State) : State :=
  { s with phase := p, akey := k, anonce := n }

/-- `KEY[i] <- v ; KEYV[i] <- 1` (R22, R53). -/
def loadKey (i : Fin 8) (v : Word) (s : State) : State :=
  { s with key := s.key.set i v, keyv := setValid s.keyv i }

/-- `NONCE[i] <- v ; NONCEV[i] <- 1` (R23, R53). -/
def loadNonce (i : Fin 6) (v : Word) (s : State) : State :=
  { s with nonce := s.nonce.set i v, noncev := setValid s.noncev i }

/-- `ERRCODE <- c` (R38). -/
def setErrcode (c : BitVec 4) (s : State) : State := { s with errcode := c }

/-- Present a response (R61). -/
def respond (r : Response) (s : State) : State := { s with rsp := some r }

/-- The host inputs still to come. -/
def setInputs (l : List HostInput) (s : State) : State := { s with inputs := l }

/-- Response `OK` with a read value (R52). -/
def acceptRead (v : Word) (s : State) : State := respond ⟨false, v⟩ s

/-- `return OK` of a write or a command: the value is 0 (R53, R61). -/
def accept (s : State) : State := acceptRead 0 s

/-- The error codes of R182, in the order of their numbers. -/
inductive ErrorKind where
  /-- 1, `E_KEYLEN`: the key is not complete (R183). -/
  | keyLen
  /-- 2, `E_NONCELEN`: a nonce word the command uses was never written (R183). -/
  | nonceLen
  /-- 3, `E_MALFORMED`: host driver only (R191). -/
  | malformed
  /-- 4, `E_RANDOM`: host driver only (R191). -/
  | random
  /-- 5, `E_ILLCMD`: the word written to `CMD` is not a command (R183). -/
  | illCmd
  /-- 6, `E_PHASE`: `BLK_XOR` with no live stream (R183). -/
  | phase
  /-- 7, `E_ACCESS`: an access the window does not accept (R183). -/
  | access
  deriving DecidableEq, Repr

/-- The code of an error (R182). -/
def errorCode : ErrorKind → BitVec 4
  | .keyLen => 1
  | .nonceLen => 2
  | .malformed => 3
  | .random => 4
  | .illCmd => 5
  | .phase => 6
  | .access => 7

/-- `raise Reject(code)` (R181, R186): sticky-first `ERRCODE`, response `ERR` with value 0, no other effect. -/
def reject (e : ErrorKind) (s : State) : State :=
  respond ⟨true, 0⟩ (setErrcode (if s.errcode = 0 then errorCode e else s.errcode) s)

/-- The acknowledgement of an error (R187): `ERRCODE <- 0`, and nothing else is restored. -/
def clearError (s : State) : State := setErrcode 0 s

/-- Every piece of R20's state at its reset value (R172, R200); the ports are no part of it. -/
def clearAll (s : State) : State := { State.reset with rsp := s.rsp, inputs := s.inputs }

end Sys2Proof.Machine
end

