-- ==== Sys2Proof/Machine/Operands.lean ====
section
/-! DEFINITION. The operand forms of the commands: the `X` words of `QR` (R73, R91), the key with a nonce of three,
four or six words and its checks (R22, R23, R183, R184), and the block of the live stream (R133). -/

namespace Sys2Proof.Machine

/-- The key and nonce checks of a command that uses `NONCE[0..m-1]`, in the order of R184, then its effect. A
rejected command has no other effect (R181). -/
def withKeyAndNonce (m : Nat) (effect : State → State) (s : State) : Result :=
  if !keyComplete s then .next (reject .keyLen s)
  else if !nonceComplete m s then .next (reject .nonceLen s)
  else .next (accept (effect s))

/-- The 12-byte nonce `NONCE[0..2]` (R23). -/
def nonce12 (s : State) : Vector Word 3 := chachaNonce s.nonce

/-- The 16-byte nonce `NONCE[0..3]` (R23). -/
def nonce16 (s : State) : Vector Word 4 := hchachaNonce s.nonce

/-- The subkey of an XChaCha20 stream (R150, R152). -/
def subkey (s : State) : Vector Word 8 := hchacha20 s.key (nonce16 s)

/-- The inner nonce of an XChaCha20 stream (R151, R152). -/
def splitNonce (s : State) : Vector Word 3 := innerNonce s.nonce

/-- `n = min(64, REM)`, the bytes of the next block (R133). -/
def blockBytes (s : State) : Nat := min 64 s.rem.toNat

/-- The keystream block of the live stream (R133). -/
def streamKeystream (s : State) : Vector Word 16 := cc20Block s.akey s.ctr s.anonce

/-- `OUT` after `HCC20`: the subkey, then eight zero words (R121). -/
def padSubkey (z : Vector Word 8) : Vector Word 16 :=
  #v[z[0], z[1], z[2], z[3], z[4], z[5], z[6], z[7], 0, 0, 0, 0, 0, 0, 0, 0]

/-- No stream context: `PHASE` idle, `AKEY` and `ANONCE` zero (R132, R135). -/
def endContext (s : State) : State := setContext .idle (Vector.replicate 8 0) (Vector.replicate 3 0) s

/-- Start a stream with this key and nonce (R132, R152): `CTR <- ICTR`, `REM <- LEN`, and the context unless the
stream is empty. -/
def startStream (k : Vector Word 8) (n : Vector Word 3) (s : State) : State :=
  if s.len = 0 then endContext (setPosition s.ictr s.len s)
  else setContext (phaseAfterStart s.len) k n (setPosition s.ictr s.len s)

/-- The position after the next block: `CTR` one further (wrapping, R137), `REM` less by the block (R133). -/
def advanceStream (s : State) : State :=
  setPosition (add32 s.ctr 1) (s.rem - BitVec.ofNat 32 (blockBytes s)) s

/-- A stream with nothing left ends in the same step (R135). -/
def endIfDone (s : State) : State := if s.rem = 0 then endContext s else s

end Sys2Proof.Machine
end

