-- ==== Sys2Proof/Machine/Block.lean ====
section
/-! DEFINITION. The block commands `CC20_BLOCK` and `HCC20` (R114, R121). -/

namespace Sys2Proof.Machine

/-- `CC20_BLOCK`: `OUT <- cc20_block(KEY, ICTR, NONCE[0..2])` (R114). -/
def execCc20Block (s : State) : Result :=
  withKeyAndNonce 3 (fun s => setOut (cc20Block s.key s.ictr (nonce12 s)) s) s

/-- `HCC20`: `OUT[0..7] <- hchacha20(KEY, NONCE[0..3])`, `OUT[8..15] <- 0` (R121). -/
def execHcc20 (s : State) : Result :=
  withKeyAndNonce 4 (fun s => setOut (padSubkey (hchacha20 s.key (nonce16 s))) s) s

end Sys2Proof.Machine
end

