-- ==== Sys2Proof/Machine/Primitive.lean ====
section
/-! DEFINITION. The primitive commands on `X`: `QR`, `DROUND`, `PERMUTE` (R91, R102, R103). -/

namespace Sys2Proof.Machine

/-- `QR a,b,c,d`: `X <- qr_at(X, a, b, c, d)`; indices that are not pairwise distinct are `E_ILLCMD` and leave `X`
unchanged (R91). The decoder lets no such command through (R76, log 5). -/
def execQr (a b c d : Fin 16) (s : State) : Result :=
  if pairwiseDistinct a b c d then .next (accept (setX (qrAt s.x a b c d) s))
  else .next (reject .illCmd s)

/-- `DROUND`: `X <- dround(X)` (R102). -/
def execDround (s : State) : Result := .next (accept (setX (dround s.x) s))

/-- `PERMUTE`: `X <- permute(X)`, no feed-forward (R103). -/
def execPermute (s : State) : Result := .next (accept (setX (permute s.x) s))

end Sys2Proof.Machine
end

