-- ==== Sys2Proof/Machine/Stream.lean ====
section
/-! DEFINITION. The stream commands `CTR_START`, `XCC_START`, `BLK_XOR` (R132, R152, R133). -/

namespace Sys2Proof.Machine

/-- `CTR_START`: a stream with the host-visible key and 12-byte nonce (R132). -/
def execCtrStart (s : State) : Result :=
  withKeyAndNonce 3 (fun s => startStream s.key (nonce12 s) s) s

/-- `XCC_START`: a stream with the derived subkey and the split nonce (R152). -/
def execXccStart (s : State) : Result :=
  withKeyAndNonce 6 (fun s => startStream (subkey s) (splitNonce s) s) s

/-- `BLK_XOR`: the next block of the live stream (R133, R135); with none live, `E_PHASE`. -/
def execBlkXor (s : State) : Result :=
  match s.phase with
  | .idle => .next (reject .phase s)
  | .stream =>
    .next (accept (endIfDone (advanceStream (setDout (xorBlock s.din (streamKeystream s) (blockBytes s)) s))))

end Sys2Proof.Machine
end

