-- ==== Sys2Proof/Machine/System.lean ====
section
/-! DEFINITION. The system commands `NOP`, `CLRERR`, `CLEAR` (R170 to R172). -/

namespace Sys2Proof.Machine

/-- `NOP`: `return OK` (R170). -/
def execNop (s : State) : Result := .next (accept s)

/-- `CLRERR`: `ERRCODE <- 0 ; return OK` (R171). -/
def execClrerr (s : State) : Result := .next (accept (clearError s))

/-- `CLEAR`: every piece of state to its reset value (R172). -/
def execClear (s : State) : Result := .next (accept (clearAll s))

end Sys2Proof.Machine
end

