-- ==== Sys2Proof/Machine/Dispatch.lean ====
section
/-! DEFINITION. Which meaning each command has: one arm per row of the opcode map (R74). -/

namespace Sys2Proof.Machine

/-- The effect of a decoded command, with its response (R76). -/
def exec (i : Instr) (s : State) : Host.Outcome State Fault Refusal :=
  match i with
  | .nop => Sys2Proof.Machine.execNop s
  | .clrerr => Sys2Proof.Machine.execClrerr s
  | .clear => Sys2Proof.Machine.execClear s
  | .qr a b c d => Sys2Proof.Machine.execQr a b c d s
  | .dround => Sys2Proof.Machine.execDround s
  | .permute => Sys2Proof.Machine.execPermute s
  | .cc20Block => Sys2Proof.Machine.execCc20Block s
  | .hcc20 => Sys2Proof.Machine.execHcc20 s
  | .ctrStart => Sys2Proof.Machine.execCtrStart s
  | .xccStart => Sys2Proof.Machine.execXccStart s
  | .blkXor => Sys2Proof.Machine.execBlkXor s

end Sys2Proof.Machine
end

