-- ==== Sys2Proof/Machine/Window.lean ====
section
/-! DEFINITION. The register window (R50, R54): which register stands at an offset, its access right, and the reading
and writing of one register (R52, R53). -/

namespace Sys2Proof.Machine

/-- The registers of the window (R54). -/
inductive Reg where
  | id
  | status
  | cmd
  | ictr
  | len
  | ctr
  | rem
  | key (i : Fin 8)
  | nonce (i : Fin 6)
  | x (i : Fin 16)
  | out (i : Fin 16)
  | din (i : Fin 16)
  | dout (i : Fin 16)
  deriving DecidableEq, Repr

/-- The access column of R54. -/
inductive Access where
  | readOnly
  | writeOnly
  | readWrite
  deriving DecidableEq, Repr

/-- The access right of a register (R54). -/
def accessOf : Reg → Access
  | .id => .readOnly
  | .status => .readOnly
  | .cmd => .writeOnly
  | .ictr => .readWrite
  | .len => .readWrite
  | .ctr => .readOnly
  | .rem => .readOnly
  | .key _ => .writeOnly
  | .nonce _ => .readWrite
  | .x _ => .readWrite
  | .out _ => .readOnly
  | .din _ => .readWrite
  | .dout _ => .readOnly

/-- Not write-only (R52). -/
def readable (r : Reg) : Bool := accessOf r != .writeOnly

/-- Not read-only (R53). -/
def writable (r : Reg) : Bool := accessOf r != .readOnly

/-- Element `i` of a register file that starts at byte offset `base` (R54). -/
def fileOffset (base i : Nat) : Offset := BitVec.ofNat 9 (base + 4 * i)

/-- The offset of a register (R54). -/
def regOffset : Reg → Offset
  | .id => 0x000
  | .status => 0x004
  | .cmd => 0x008
  | .ictr => 0x00C
  | .len => 0x010
  | .ctr => 0x014
  | .rem => 0x018
  | .key i => fileOffset 0x020 i
  | .nonce i => fileOffset 0x040 i
  | .x i => fileOffset 0x080 i
  | .out i => fileOffset 0x0C0 i
  | .din i => fileOffset 0x100 i
  | .dout i => fileOffset 0x140 i

/-- The index of an aligned offset in a file of `n` registers that starts at byte offset `base`, if it lies in it. -/
def fileIndex (base n a : Nat) : Option (Fin n) :=
  if h : base ≤ a ∧ (a - base) / 4 < n then some ⟨(a - base) / 4, h.2⟩ else none

/-- The register at an aligned offset among those that are no file (R54). -/
def scalarAt (a : Nat) : Option Reg :=
  if a = 0x000 then some .id
  else if a = 0x004 then some .status
  else if a = 0x008 then some .cmd
  else if a = 0x00C then some .ictr
  else if a = 0x010 then some .len
  else if a = 0x014 then some .ctr
  else if a = 0x018 then some .rem
  else none

/-- The register at an aligned offset; `none` where the window is unmapped (R54). The offset after `KEY[7]`, `0x040`, is
`NONCE[0]`, as R54's table has it, although a remark of R183 calls a write past `KEY[7]` an access to an unmapped
offset: DESIGN CHOICE (log 12, unsafe). -/
def regAtAligned (a : Nat) : Option Reg :=
  (scalarAt a).or <| ((fileIndex 0x020 8 a).map Reg.key).or <| ((fileIndex 0x040 6 a).map Reg.nonce).or <|
    ((fileIndex 0x080 16 a).map Reg.x).or <| ((fileIndex 0x0C0 16 a).map Reg.out).or <|
    ((fileIndex 0x100 16 a).map Reg.din).or <| (fileIndex 0x140 16 a).map Reg.dout

/-- The register at an offset: every offset not listed in R54, a misaligned one among them, is unmapped. -/
def regAt (addr : Offset) : Option Reg := if addr.toNat % 4 = 0 then regAtAligned addr.toNat else none

/-- The constant of `ID`, "XCC1" (R28). -/
def idValue : Word := 0x58434331#32

/-- What a read of a register gives (R52). A write-only register is never read: the value is 0 (R22). -/
def readReg (r : Reg) (s : State) : Word :=
  match r with
  | .id => idValue
  | .status => statusView s
  | .cmd => 0
  | .ictr => s.ictr
  | .len => s.len
  | .ctr => s.ctr
  | .rem => s.rem
  | .key _ => 0
  | .nonce i => s.nonce[i]
  | .x i => s.x[i]
  | .out i => s.out[i]
  | .din i => s.din[i]
  | .dout i => s.dout[i]

/-- What a write of a register other than `CMD` does (R53). A read-only register is never written. -/
def writeReg (r : Reg) (v : Word) (s : State) : State :=
  match r with
  | .id => s
  | .status => s
  | .cmd => s
  | .ictr => setIctr v s
  | .len => setLen v s
  | .ctr => s
  | .rem => s
  | .key i => loadKey i v s
  | .nonce i => loadNonce i v s
  | .x i => setX (s.x.set i v) s
  | .out _ => s
  | .din i => setDin (s.din.set i v) s
  | .dout _ => s

/-- The access is a naturally aligned 32-bit one (R56). -/
def aligned32 (addr : Offset) (size : AccessSize) : Bool := size == .four && addr.toNat % 4 == 0

/-- The register a read reaches: aligned 32-bit, mapped, not write-only (R52). -/
def readTarget (addr : Offset) (size : AccessSize) : Option Reg :=
  if aligned32 addr size then (regAt addr).filter readable else none

/-- The register a write reaches: aligned 32-bit, mapped, not read-only (R53). -/
def writeTarget (addr : Offset) (size : AccessSize) : Option Reg :=
  if aligned32 addr size then (regAt addr).filter writable else none

end Sys2Proof.Machine
end

