-- ==== Sys2Proof/Machine/Transact.lean ====
section
/-! DEFINITION. The two transactions of the host (R52, R53) and the serving of the next host input (R51, R200, R204).
A command runs when its word is written to `CMD` (R30, R76). -/

namespace Sys2Proof.Machine

/-- `MemRead(addr, n)` (R52). -/
def memRead (addr : Offset) (size : AccessSize) (s : State) : Result :=
  match readTarget addr size with
  | none => .next (reject .access s)
  | some r => .next (acceptRead (readReg r s) s)

/-- The word `w` written to `CMD`: decode it, then run the command; an illegal word is `E_ILLCMD` (R75, R76). -/
def runCommand (w : Word) (s : State) : Result :=
  match decode w with
  | .error _ => .next (reject .illCmd s)
  | .ok i => exec i s

/-- `MemWrite(addr, n, v)` (R53). -/
def memWrite (addr : Offset) (size : AccessSize) (v : Word) (s : State) : Result :=
  match writeTarget addr size with
  | none => .next (reject .access s)
  | some .cmd => runCommand v s
  | some r => .next (accept (writeReg r v s))

/-- One transaction, whole (R51). -/
def transact (t : Transaction) (s : State) : Result :=
  match t with
  | .read addr size => memRead addr size s
  | .write addr size v => memWrite addr size v s

/-- The reset input (R200): the reset state, no response presented; what the host presents afterwards is still to
come (log 4). -/
def resetUnit (rest : List HostInput) : State := setInputs rest State.reset

/-- Serve the next host input: one transaction or one reset. With none presented nothing changes (R204). -/
def serveNext (s : State) : Result :=
  match s.inputs with
  | [] => .next s
  | .reset :: rest => .next (resetUnit rest)
  | .request t :: rest => transact t (setInputs rest s)

/-- The transaction that issues the command word `w`: a write of it to `CMD` (R30, R78). -/
def commandWrite (w : Word) : Transaction := .write (regOffset .cmd) .four w

/-- `s` with a host that presents a transaction next. -/
def presentFirst (t : Transaction) (s : State) : State := setInputs (.request t :: s.inputs) s

end Sys2Proof.Machine
end

