-- ==== Sys2Proof/Machine/Step.lean ====
section
/-! DEFINITION. One step of the unit (R11, R51): it serves the next host input. -/

namespace Sys2Proof.Machine

/-- One step: the next transaction, whole, or the next reset; with no input, nothing changes (R51, R204). -/
def step (s : State) : Host.Outcome State Fault Refusal := serveNext s

/-- `s` where the host's next transaction writes the command word to `CMD`, so that the next step runs it. The unit
fetches nothing (R27): commands reach it only so (R30, log 1). -/
def State.withFetchWord (s : State) (nbits w : Nat) : State := presentFirst (commandWrite (tableWord nbits w)) s

end Sys2Proof.Machine
end

