-- ==== Sys2Proof/Machine/Driver.lean ====
section
/-! DEFINITION. The host side that the spec writes down: the script notation (R78, R79), the loading and reading of
byte sequences (R63), and the wrapper procedures `encrypt` and `decrypt` (R158 to R161). It is software: it reaches
the unit only through transactions. -/

namespace Sys2Proof.Machine

/-- `wr <reg>, <value>` (R78). -/
def wr (r : Reg) (v : Word) : Transaction := .write (regOffset r) .four v

/-- `rd <reg>` (R78). -/
def rd (r : Reg) : Transaction := .read (regOffset r) .four

/-- `cmd <MNEMONIC>` (R78). -/
def cmd (i : Instr) : Transaction := commandWrite (encode i)

/-- The encoding of a script line: write flag, offset, data (R78). An `rd` line has no value; the data 0 in its triple
is DESIGN CHOICE (log 11, safe). -/
def lineTriple : Transaction → Bool × Offset × Word
  | .read a _ => (false, a, 0)
  | .write a _ v => (true, a, v)

/-- Word `j` of a byte sequence, missing bytes taken as 00: R79 says so for `ldblk`; for the other lines DESIGN CHOICE
(log 11). -/
def wordAt (bytes : List Byte) (j : Nat) : Word :=
  le32 (bytes.getD (4 * j) 0) (bytes.getD (4 * j + 1) 0) (bytes.getD (4 * j + 2) 0) (bytes.getD (4 * j + 3) 0)

/-- `ldkey`: 32 bytes into `KEY[0..7]`, in that order (R79). Other lengths: DESIGN CHOICE, padded with 00 or cut
(log 11). -/
def ldkey (bytes : List Byte) : List Transaction := (List.finRange 8).map fun i => wr (.key i) (wordAt bytes i)

/-- `ldnonce`: 12, 16 or 24 bytes into `NONCE[0..m-1]`, `m` = 3, 4 or 6 (R79). Other lengths: DESIGN CHOICE, the whole
words, at most six (log 11). -/
def ldnonce (bytes : List Byte) : List Transaction :=
  ((List.finRange 6).take (bytes.length / 4)).map fun i => wr (.nonce i) (wordAt bytes i)

/-- The words that hold a block of `n` bytes: `DIN[j]` or `DOUT[j]` for `j` = 0..ceil(n/4)-1, for
1 <= n <= 64 (R63, R79). Other `n`: DESIGN CHOICE, no word for 0 and sixteen above 64 (log 11). -/
def blockWords (n : Nat) : List (Fin 16) := (List.finRange 16).take ((n + 3) / 4)

/-- `ldblk`: `n` bytes into `DIN` (R79). -/
def ldblk (bytes : List Byte) : List Transaction :=
  (blockWords bytes.length).map fun j => wr (.din j) (wordAt bytes j)

/-- The reads of `rdblk n` (R79). -/
def rdblk (n : Nat) : List Transaction := (blockWords n).map fun j => rd (.dout j)

/-- `rdout m`, `m` = 8 or 16 (R79). Other `m`: DESIGN CHOICE, the first `m` words, at most sixteen (log 11). -/
def rdout (m : Nat) : List Transaction := ((List.finRange 16).take m).map fun j => rd (.out j)

/-- `ldx w0 .. w15` (R79). -/
def ldx (w : Vector Word 16) : List Transaction := (List.finRange 16).map fun i => wr (.x i) w[i]

/-- `rdx` (R79). -/
def rdx : List Transaction := (List.finRange 16).map fun i => rd (.x i)

/-- One transaction that the script expects to be answered `OK` (R78): the value read and the state after it. An
`ERR` response is failure of the call (R203). -/
def expectOk (t : Transaction) (s : State) : Option (Word × State) :=
  match transact t s with
  | .next s' => match s'.rsp with
    | some r => if r.err then none else some (r.rdata, s')
    | none => none
  | .fault _ => none
  | .refused _ => none

/-- A script, each line answered `OK`: the values read, in order, and the state after it (R78). -/
def runScript : List Transaction → State → Option (List Word × State)
  | [], s => some ([], s)
  | t :: ts, s => match expectOk t s with
    | none => none
    | some (w, s') => match runScript ts s' with
      | none => none
      | some (ws, s'') => some (w :: ws, s'')

/-- One block of a stream: `ldblk`, `BLK_XOR`, `rdblk`; the block's bytes of output (R136, R159). -/
def driveBlock (block : List Byte) (s : State) : Option (List Byte × State) :=
  match runScript (ldblk block ++ [cmd .blkXor]) s with
  | none => none
  | some (_, s') => match runScript (rdblk block.length) s' with
    | none => none
    | some (ws, s'') => some ((bytesLe ws).take block.length, s'')

/-- `m` blocks of a stream over `data`, 64 bytes a block, the last may be shorter (R136). -/
def driveStream : Nat → List Byte → State → Option (List Byte × State)
  | 0, _, s => some ([], s)
  | m + 1, data, s => match driveBlock (data.take 64) s with
    | none => none
    | some (o, s') => match driveStream m (data.drop 64) s' with
      | none => none
      | some (os, s'') => some (o ++ os, s'')

/-- Why a driver call fails (R182, R191, R203). -/
inductive DriverError where
  /-- (a) the key is not exactly 32 bytes. -/
  | invalidKeyLength
  /-- (b) the nonce is not exactly as long as its use needs: 24, 12 or 16 bytes. -/
  | invalidNonceLength
  /-- (c) the payload is shorter than the nonce. -/
  | malformedCiphertext
  /-- (d) the random source cannot supply 24 bytes. -/
  | randomSourceUnavailable
  /-- One stream carries at most 2^32 - 1 bytes (R32); `encrypt` and `decrypt` do not cut longer messages themselves, and
  `driveChunks` has a limit on its streams (log 8). -/
  | messageTooLong
  /-- The unit answered a transaction with `ERR` (R203). -/
  | unitRejected
  deriving DecidableEq, Repr

/-- The code under which a driver reports its error in the enumeration of R182 (R191); the model's own two have
none. -/
def driverErrorKind : DriverError → Option ErrorKind
  | .invalidKeyLength => some .keyLen
  | .invalidNonceLength => some .nonceLen
  | .malformedCiphertext => some .malformed
  | .randomSourceUnavailable => some .random
  | .messageTooLong => none
  | .unitRejected => none

/-- The four commands that use a key and a nonce (R183). -/
inductive KeyedCommand where
  | cc20Block
  | hcc20
  | ctrStart
  | xccStart
  deriving DecidableEq, Repr

/-- The command itself. -/
def keyedInstr : KeyedCommand → Instr
  | .cc20Block => .cc20Block
  | .hcc20 => .hcc20
  | .ctrStart => .ctrStart
  | .xccStart => .xccStart

/-- How many bytes the nonce of a command has, exactly (R161). -/
def nonceLength : KeyedCommand → Nat
  | .cc20Block => 12
  | .hcc20 => 16
  | .ctrStart => 12
  | .xccStart => 24

/-- Key and nonce of a command, loaded after the exact-length checks of R161. -/
def loadScript (c : KeyedCommand) (key nonce : List Byte) : Except DriverError (List Transaction) :=
  if key.length ≠ 32 then .error .invalidKeyLength
  else if nonce.length ≠ nonceLength c then .error .invalidNonceLength
  else .ok (ldkey key ++ ldnonce nonce)

/-- What a command needs beside key and nonce: the counter, and for a stream the length (R31, R32, R202). -/
def setupScript (c0 : Word) (len : Nat) : KeyedCommand → List Transaction
  | .cc20Block => [wr .ictr c0]
  | .hcc20 => []
  | .ctrStart => [wr .ictr c0, wr .len (BitVec.ofNat 32 len)]
  | .xccStart => [wr .ictr c0, wr .len (BitVec.ofNat 32 len)]

/-- The script a call begins with, its lengths checked: `CLEAR`, key, nonce, counter and length, the command (R159,
R160, R161, R202). -/
def callScript (c : KeyedCommand) (key nonce : List Byte) (c0 : Word) (len : Nat) :
    Except DriverError (List Transaction) :=
  match loadScript c key nonce with
  | .error e => .error e
  | .ok load => .ok ([cmd .clear] ++ load ++ setupScript c0 len c ++ [cmd (keyedInstr c)])

/-- The unit's part of a call: its start script, every block, then `CLEAR`. -/
def runCall (script : List Transaction) (data : List Byte) (s : State) : Option (List Byte × State) :=
  match runScript script s with
  | none => none
  | some (_, s1) => match driveStream (blockCount data.length) data s1 with
    | none => none
    | some (o, s2) => match runScript [cmd .clear] s2 with
      | none => none
      | some (_, s3) => some (o, s3)

/-- One XChaCha20 call: the checks, then start, every block, `CLEAR` (R159 steps 3 to 7, R160 steps 4 to 6). No
transaction reaches the unit where a check fails (R161). -/
def driveCall (key nonce : List Byte) (c0 : Word) (data : List Byte) (s : State) :
    Except DriverError (List Byte × State) :=
  match callScript .xccStart key nonce c0 data.length with
  | .error e => .error e
  | .ok script =>
    if 2 ^ 32 ≤ data.length then .error .messageTooLong
    else match runCall script data s with
      | none => .error .unitRejected
      | some r => .ok r

/-- A message of any length (R211), cut at multiples of `64 b` bytes into at most `m` streams, each continued with
`ICTR` advanced by the number of blocks already done. The lengths of key and nonce are checked before any transaction
(R161), with no stream too. The rest of the procedure is DESIGN CHOICE (log 8): every cut has the same size, each stream
is a whole call, `CLEAR` to `CLEAR`, with key and nonce loaded again and `XCC_START`, and data left after `m` streams
is `messageTooLong`. -/
def driveChunks (b : Nat) : Nat → List Byte → List Byte → Word → List Byte → State →
    Except DriverError (List Byte × State)
  | 0, key, nonce, _, data, s => match loadScript .xccStart key nonce with
    | .error e => .error e
    | .ok _ => if data.isEmpty then .ok ([], s) else .error .messageTooLong
  | m + 1, key, nonce, c0, data, s => match driveCall key nonce c0 (data.take (64 * b)) s with
    | .error e => .error e
    | .ok (o, s') =>
      match driveChunks b m key nonce (add32 c0 (BitVec.ofNat 32 b)) (data.drop (64 * b)) s' with
      | .error e => .error e
      | .ok (os, s'') => .ok (o ++ os, s'')

/-- `encrypt(message, key, rng)` (R159): the draw of the random source is an argument, `none` where it cannot supply
the bytes (log 8). The payload is the ciphertext, then the nonce (R158). -/
def encrypt (message key : List Byte) (draw : Option (List Byte)) (s : State) :
    Except DriverError (List Byte × State) :=
  if key.length ≠ 32 then .error .invalidKeyLength
  else match draw with
    | none => .error .randomSourceUnavailable
    | some nonce =>
      if nonce.length ≠ 24 then .error .randomSourceUnavailable
      else match driveCall key nonce 0 message s with
        | .error e => .error e
        | .ok (c, s') => .ok (c ++ nonce, s')

/-- `decrypt(payload, key)` (R160): the nonce is the trailing 24 bytes. -/
def decrypt (payload key : List Byte) (s : State) : Except DriverError (List Byte × State) :=
  if key.length ≠ 32 then .error .invalidKeyLength
  else if payload.length < 24 then .error .malformedCiphertext
  else driveCall key (payload.drop (payload.length - 24)) 0 (payload.take (payload.length - 24)) s

end Sys2Proof.Machine
end

