-- ==== Sys2Proof/Machine/Platform.lean ====
section
/-! DEFINITION. A platform with several units (R189, D25): each is a cipher context of its own and they share no
state (log 10). -/

namespace Sys2Proof.Machine

/-- The units of a platform after reset: `NUM_INSTANCES` of them, 1 where the platform gives no number (R6, R189,
D25). -/
def platformReset (numInstances : Nat := Config.numInstancesDefault) : List State :=
  List.replicate numInstances State.reset

/-- The units after unit `k` steps; a `k` that names no unit changes nothing. -/
def platformStep (k : Nat) (units : List State) : List State :=
  units.modify k fun s => match step s with
    | .next t => t
    | .fault _ => s
    | .refused _ => s

end Sys2Proof.Machine
end

