-- ==== Sys2Proof/Machine/Ports.lean ====
section
/-! DEFINITION. The wires of R61 at transaction level: how the request wires name a transaction, and what the response
wires carry. The cycle-level handshake is the open parameter `Config.busProtocol` (log 7). -/

namespace Sys2Proof.Machine

/-- `req_size` (R61): 0, 1, 2 are 1, 2, 4 bytes; 3 is treated as not 4. -/
def sizeOfPort (reqSize : BitVec 2) : AccessSize :=
  if reqSize = 0 then .one else if reqSize = 1 then .two else if reqSize = 2 then .four else .other

/-- The transaction on the request wires `req_write`, `req_addr`, `req_size`, `req_wdata` (R61). -/
def transactionOfPorts (reqWrite : Bool) (reqAddr : Offset) (reqSize : BitVec 2) (reqWdata : Word) : Transaction :=
  if reqWrite then .write reqAddr (sizeOfPort reqSize) reqWdata else .read reqAddr (sizeOfPort reqSize)

/-- The host input on `rst_n` and the request wires; none where no request is valid (R61, R200). -/
def inputOfPorts (rstN reqValid reqWrite : Bool) (reqAddr : Offset) (reqSize : BitVec 2) (reqWdata : Word) :
    Option HostInput :=
  if !rstN then some .reset
  else if reqValid then some (.request (transactionOfPorts reqWrite reqAddr reqSize reqWdata))
  else none

/-- `req_ready` between steps (R61, R200): no transaction is in progress then, so the unit accepts the next one unless
it is held in reset. -/
def reqReady (rstN : Bool) : Bool := rstN

/-- `rsp_valid` (R61). -/
def rspValid (s : State) : Bool := s.rsp.isSome

/-- `rsp_err` (R61). R61 gives it for a presented response only; low where none is presented is DESIGN CHOICE (log 2,
unsafe). -/
def rspErr (s : State) : Bool := match s.rsp with
  | some r => r.err
  | none => false

/-- `rsp_rdata` (R61). R61 gives it for a presented response only; 0 where none is presented is DESIGN CHOICE (log 2,
unsafe). -/
def rspRdata (s : State) : Word := match s.rsp with
  | some r => r.rdata
  | none => 0

end Sys2Proof.Machine
end

