-- ==== Sys2Proof/Safety.lean ====
section
/-! DEFINITION. What claims about the unit are stated with: the invariant of its state (R34, R36, R38, R39) and the
runs it holds along, the error-free states of R187, the reset values of R39, and, written from the rules and not from
the meanings, which error a transaction reports (R183, R184), what a rejection leaves (R181) and the index groups of
the double round (R100). -/

namespace Sys2Proof

open Sys2Proof.Machine

/-- The codes `ERRCODE` can hold: none, or one the unit raises; never 3, 4, 8..15 (R182). -/
def recordedCode (c : BitVec 4) : Bool := c == 0 || c == 1 || c == 2 || c == 5 || c == 6 || c == 7

/-- The invariant of the unit's state. -/
structure UnitInv (s : State) : Prop where
  /-- `PHASE = STREAM` iff `REM != 0` (R34). -/
  stream_iff : s.phase = .stream ↔ s.rem ≠ 0
  /-- With no live stream the hidden context is zero (R36). -/
  idle_context : s.phase = .idle → s.akey = Vector.replicate 8 0 ∧ s.anonce = Vector.replicate 3 0
  /-- `ERRCODE` holds a code the unit raises, or 0 (R182). -/
  code : recordedCode s.errcode = true
  /-- A key word not written since reset or `CLEAR` is 0 (R22, R39). -/
  key_zero : ∀ i : Fin 8, s.keyv.getLsbD i = false → s.key[i] = 0
  /-- A nonce word not written since reset or `CLEAR` is 0 (R23, R39). -/
  nonce_zero : ∀ i : Fin 6, s.noncev.getLsbD i = false → s.nonce[i] = 0
  /-- A live stream was started with a complete key and 12-byte nonce, and only `CLEAR` and reset, which end it,
  clear valid bits (R22, R23, R132, R152). -/
  stream_loaded : s.phase = .stream → s.keyv = 0xFF#8 ∧ s.noncev.extractLsb' 0 3 = 0b111#3

/-- The states a unit can be in: reset with any host, then any steps. -/
inductive Reachable : State → Prop where
  | reset (l : List HostInput) : Reachable (setInputs l State.reset)
  | step {s t : State} (h : Reachable s) (e : Machine.step s = .next t) : Reachable t

/-- No error is recorded: what a claim about a host program takes at the start and proves at the end (R187). -/
abbrev NoError (s : State) : Prop := s.errcode = 0

/-- The table of R39. -/
structure ResetValues (s : State) : Prop where
  x : ∀ i : Fin 16, s.x[i] = 0
  key : ∀ i : Fin 8, s.key[i] = 0
  keyv : s.keyv = 0
  nonce : ∀ i : Fin 6, s.nonce[i] = 0
  noncev : s.noncev = 0
  out : ∀ i : Fin 16, s.out[i] = 0
  din : ∀ i : Fin 16, s.din[i] = 0
  dout : ∀ i : Fin 16, s.dout[i] = 0
  ictr : s.ictr = 0
  len : s.len = 0
  ctr : s.ctr = 0
  rem : s.rem = 0
  errcode : s.errcode = 0
  phase : s.phase = .idle
  akey : ∀ i : Fin 8, s.akey[i] = 0
  anonce : ∀ i : Fin 3, s.anonce[i] = 0
  status : readReg .status s = 0
  id : readReg .id s = 0x58434331

/-- The offsets no register stands at, among the multiples of 4 (R54). -/
abbrev UnmappedOffset (a : Nat) : Prop := a = 0x01C ∨ (0x058 ≤ a ∧ a ≤ 0x07C) ∨ 0x180 ≤ a

/-- `CMD` and `KEY[i]` (R52, R54). -/
abbrev WriteOnlyOffset (a : Nat) : Prop := a = 0x008 ∨ (0x020 ≤ a ∧ a ≤ 0x03C)

/-- `ID`, `STATUS`, `CTR`, `REM`, `OUT[i]`, `DOUT[i]` (R53, R54). -/
abbrev ReadOnlyOffset (a : Nat) : Prop :=
  a = 0x000 ∨ a = 0x004 ∨ a = 0x014 ∨ a = 0x018 ∨ (0x0C0 ≤ a ∧ a ≤ 0x0FC) ∨ (0x140 ≤ a ∧ a ≤ 0x17C)

/-- What raises `E_ACCESS` on a read (R52, R183). -/
abbrev ReadAccessError (a : Offset) (n : AccessSize) : Prop :=
  n ≠ .four ∨ a.toNat % 4 ≠ 0 ∨ UnmappedOffset a.toNat ∨ WriteOnlyOffset a.toNat

/-- What raises `E_ACCESS` on a write (R53, R183). -/
abbrev WriteAccessError (a : Offset) (n : AccessSize) : Prop :=
  n ≠ .four ∨ a.toNat % 4 ≠ 0 ∨ UnmappedOffset a.toNat ∨ ReadOnlyOffset a.toNat

/-- `KEYV != 0xFF`, else an unwritten word among `NONCE[0..m-1]` (R183, R184). -/
def loadError (m : Nat) (s : State) : Option ErrorKind :=
  if s.keyv ≠ 0xFF#8 then some .keyLen
  else if ∃ j : Fin 6, j.val < m ∧ s.noncev.getLsbD j = false then some .nonceLen
  else none

/-- The error a decoded command reports (R183, R184). -/
def commandError (i : Instr) (s : State) : Option ErrorKind :=
  match i with
  | .nop => none
  | .clrerr => none
  | .clear => none
  | .qr _ _ _ _ => none
  | .dround => none
  | .permute => none
  | .cc20Block => loadError 3 s
  | .hcc20 => loadError 4 s
  | .ctrStart => loadError 3 s
  | .xccStart => loadError 6 s
  | .blkXor => if s.phase = .idle then some .phase else none

/-- The error of a command word (R184): decode before the command's own checks. -/
def wordError (w : Word) (s : State) : Option ErrorKind :=
  match decode w with
  | .error _ => some .illCmd
  | .ok i => commandError i s

/-- The one error a transaction reports, the first that applies in the order of R184. -/
def firstError (t : Transaction) (s : State) : Option ErrorKind :=
  match t with
  | .read a n => if ReadAccessError a n then some .access else none
  | .write a n w =>
    if WriteAccessError a n then some .access
    else if a = 0x008#9 then wordError w s
    else none

/-- What a rejection with code `c` leaves (R181): the code if none was recorded, the response `ERR` with value 0. -/
def rejected (c : BitVec 4) (s : State) : State :=
  { s with errcode := if s.errcode = 0 then c else s.errcode, rsp := some ⟨true, 0⟩ }

/-- The index groups of the columns and of the diagonals (R100). -/
abbrev Group := Fin 16 × Fin 16 × Fin 16 × Fin 16

def columnGroups : List Group := [(0, 4, 8, 12), (1, 5, 9, 13), (2, 6, 10, 14), (3, 7, 11, 15)]

def diagonalGroups : List Group := [(0, 5, 10, 15), (1, 6, 11, 12), (2, 7, 8, 13), (3, 4, 9, 14)]

/-- Quarter-rounds on the groups of a list, in its order. -/
def applyGroups (gs : List Group) (v : Vector Word 16) : Vector Word 16 :=
  gs.foldl (fun v g => qrAt v g.1 g.2.1 g.2.2.1 g.2.2.2) v

end Sys2Proof
end

