-- ==== Sys2Proof/Certificates/Slice0/Obligations.lean ====
section
/-! DEFINITION. The statements about the unit, for the provers. Each docstring names the rule of spec/ it formalises.
`⟨false, v⟩` is the response `OK` with value `v`, `⟨true, 0⟩` is `ERR` (R61). -/

open Sys2Proof Sys2Proof.Machine

/-! ### Encoding and decoding -/

/-- R71 to R76: the decoder reads back every well-formed command from its word. -/
def Obligations.DecodeOfEncode : Prop :=
  ∀ i : Instr, i.wellFormed = true → decode (encode i) = .ok i

/-- R71 to R76: a word that decodes is the word of the command it decodes to, and that command is well-formed. -/
def Obligations.EncodeOfDecode : Prop :=
  ∀ (w : Word) (i : Instr), decode w = .ok i → i.wellFormed = true ∧ encode i = w

/-- R74, R75: a word decodes iff it matches a row of the opcode map and, where its opcode is that of `QR`, its four
index fields are pairwise distinct. -/
def Obligations.WordDecodesIffTableRow : Prop :=
  ∀ w : Word, (∃ i, decode w = .ok i) ↔
    (∃ r ∈ opcodeTable, w &&& r.mask = r.pattern) ∧
    (w.extractLsb' 0 8 = 0x10#8 →
      [w.extractLsb' 8 4, w.extractLsb' 12 4, w.extractLsb' 16 4, w.extractLsb' 20 4].Nodup)

/-- R74: no word matches two rows of the opcode map. -/
def Obligations.OpcodeRowsDisjoint : Prop :=
  ∀ (w : Word) (r q : OpRow), r ∈ opcodeTable → q ∈ opcodeTable →
    w &&& r.mask = r.pattern → w &&& q.mask = q.pattern → r = q

/-- R72 to R76 on a sample of command words: one for each command, two for `QR`, and four words that are no command;
most of them stand in 95_test_vectors.md V9 and V13. -/
def Obligations.SampleWordsDecode : Prop :=
  decode 0x00000000 = .ok .nop ∧ decode 0x00000001 = .ok .clrerr ∧ decode 0x00000002 = .ok .clear ∧
  decode 0x00D87210 = .ok (.qr 2 7 8 13) ∧ decode 0x00CDEF10 = .ok (.qr 15 14 13 12) ∧
  decode 0x00000011 = .ok .dround ∧ decode 0x00000012 = .ok .permute ∧ decode 0x00000020 = .ok .cc20Block ∧
  decode 0x00000021 = .ok .hcc20 ∧ decode 0x00000030 = .ok .ctrStart ∧ decode 0x00000031 = .ok .xccStart ∧
  decode 0x00000032 = .ok .blkXor ∧ decode 0x00000003 = .error .unknownOpcode ∧
  decode 0x00000010 = .error .indicesNotDistinct ∧ decode 0x01D87210 = .error .reservedBits ∧
  decode 0x00000111 = .error .reservedBits

/-! ### The step and the transactions -/

/-- R51, R58, R200: a step serves the first of the host's inputs: a transaction, whole, on the state with that input
taken away (the list of inputs is the model's, log 1). -/
def Obligations.StepServesFirstRequest : Prop :=
  ∀ (s : State) (rest : List HostInput) (tr : Transaction), s.inputs = .request tr :: rest →
    step s = transact tr { s with inputs := rest }

/-- R30, R51, R76: a write of a command's word to `CMD` runs that command, whole, on the state with that input served
(log 1); and so does the step after `withFetchWord`. -/
def Obligations.StepRunsDecodedCommand : Prop :=
  ∀ (s : State) (rest : List HostInput) (w : Word) (i : Instr), decode w = .ok i →
    (s.inputs = .request (.write 0x008 .four w) :: rest → step s = exec i { s with inputs := rest }) ∧
    step (s.withFetchWord 32 w.toNat) = exec i s

/-- R75, R76: a write to `CMD` of a word that is no command is rejected with `E_ILLCMD` and changes nothing but
`ERRCODE`. -/
def Obligations.IllegalWordRejected : Prop :=
  ∀ (s : State) (w : Word) (e : DecodeError), decode w = .error e →
    transact (.write 0x008 .four w) s = .next (rejected 5 s)

/-- R52, whole: every read either gives the register's value and changes nothing, or is rejected with `E_ACCESS`. -/
def Obligations.ReadTransactionRule : Prop :=
  ∀ (s : State) (a : Offset) (n : AccessSize),
    let gives (v : Word) : Prop := transact (.read a n) s = .next { s with rsp := some ⟨false, v⟩ }
    (ReadAccessError a n → transact (.read a n) s = .next (rejected 7 s)) ∧
    (n = .four →
      (a = 0x000 → gives 0x58434331) ∧
      (a = 0x004 → gives ((match s.phase with | .idle => 0 | .stream => 1) ||| (s.errcode.setWidth 32 <<< 4) |||
        (s.keyv.setWidth 32 <<< 8) ||| (s.noncev.setWidth 32 <<< 16))) ∧
      (a = 0x00C → gives s.ictr) ∧ (a = 0x010 → gives s.len) ∧ (a = 0x014 → gives s.ctr) ∧
      (a = 0x018 → gives s.rem) ∧
      (∀ i : Fin 6, a.toNat = 0x040 + 4 * i → gives s.nonce[i]) ∧
      (∀ i : Fin 16, a.toNat = 0x080 + 4 * i → gives s.x[i]) ∧
      (∀ i : Fin 16, a.toNat = 0x0C0 + 4 * i → gives s.out[i]) ∧
      (∀ i : Fin 16, a.toNat = 0x100 + 4 * i → gives s.din[i]) ∧
      (∀ i : Fin 16, a.toNat = 0x140 + 4 * i → gives s.dout[i]))

/-- R53, whole: every write either stores all 32 bits in the one register (and sets its valid bit), or runs the word
as a command, or is rejected with `E_ACCESS`. A live stream context is never touched by a store. -/
def Obligations.WriteTransactionRule : Prop :=
  ∀ (s : State) (a : Offset) (n : AccessSize) (v : Word),
    let u : State := { s with rsp := some ⟨false, 0⟩ }
    let after := transact (.write a n v) s
    (WriteAccessError a n → after = .next (rejected 7 s)) ∧
    (n = .four →
      (a = 0x008 → after = match decode v with
        | .ok i => exec i s
        | .error _ => .next (rejected 5 s)) ∧
      (a = 0x00C → after = .next { u with ictr := v }) ∧
      (a = 0x010 → after = .next { u with len := v }) ∧
      (∀ i : Fin 8, a.toNat = 0x020 + 4 * i →
        after = .next { u with key := s.key.set i v, keyv := s.keyv ||| (1#8 <<< i.val) }) ∧
      (∀ i : Fin 6, a.toNat = 0x040 + 4 * i →
        after = .next { u with nonce := s.nonce.set i v, noncev := s.noncev ||| (1#6 <<< i.val) }) ∧
      (∀ i : Fin 16, a.toNat = 0x080 + 4 * i → after = .next { u with x := s.x.set i v }) ∧
      (∀ i : Fin 16, a.toNat = 0x100 + 4 * i → after = .next { u with din := s.din.set i v }))

/-- R54: the window's map and the registers' offsets are each other's inverse. -/
def Obligations.WindowMapInverse : Prop :=
  (∀ r : Reg, regAt (regOffset r) = some r) ∧ (∀ (a : Offset) (r : Reg), regAt a = some r → regOffset r = a)

/-- R204: with no transaction and no reset presented, the unit changes nothing. That there is such a step is the model's
choice (log 1), and so is that the response port, no state of the unit, keeps its value in it (log 2). -/
def Obligations.IdleUnitUnchanged : Prop :=
  ∀ s : State, s.inputs = [] → step s = .next s

/-- R51, R208, 93_implementation_defined.md ("every transaction on every state has exactly one defined outcome"): no
step faults or is refused. -/
def Obligations.StepAlwaysAnswers : Prop :=
  ∀ s : State, ∃ t : State, step s = .next t

/-- R56, R61: a request whose size code is not that of 4 bytes (the code 3 among them) is rejected with `E_ACCESS`
whatever else the request wires carry. -/
def Obligations.PortSizeNotFourRejected : Prop :=
  ∀ (s : State) (write : Bool) (a : Offset) (z : BitVec 2) (v : Word), z ≠ 2 →
    transact (transactionOfPorts write a z v) s = .next (rejected 7 s)

/-! ### Reset -/

/-- R39, whole: the values after reset and after `CLEAR`, the `STATUS` view and the `ID` constant among them. -/
def Obligations.ResetAndClearValues : Prop :=
  ResetValues State.reset ∧
  (∀ s : State, ∃ t, exec .clear s = .next t ∧ t.rsp = some ⟨false, 0⟩ ∧ ResetValues t)

/-- R200: a reset input leaves the reset state; that no response is presented and that later inputs stay to come are
the model's choices (log 2, log 4). -/
def Obligations.ResetInputLeavesResetState : Prop :=
  ∀ (s : State) (rest : List HostInput), s.inputs = .reset :: rest →
    step s = .next { State.reset with inputs := rest }

/-- R201 (the spec's own derivation): what the commands and the reads do on the reset state. -/
def Obligations.CommandsOnResetState : Prop :=
  exec .blkXor State.reset = .next (rejected 6 State.reset) ∧
  (∀ i ∈ [Instr.cc20Block, .hcc20, .ctrStart, .xccStart],
    exec i State.reset = .next (rejected 1 State.reset)) ∧
  (∀ a b c d : Fin 16, [a, b, c, d].Nodup →
    exec (.qr a b c d) State.reset = .next { State.reset with rsp := some ⟨false, 0⟩ }) ∧
  (∀ i ∈ [Instr.dround, .permute], exec i State.reset = .next { State.reset with rsp := some ⟨false, 0⟩ }) ∧
  (∀ r : Reg, accessOf r ≠ .writeOnly → r ≠ .id → readReg r State.reset = 0)

/-! ### System commands -/

/-- R170: `NOP` leaves every register as it was. -/
def Obligations.NopResult : Prop :=
  ∀ s : State, exec .nop s = .next { s with rsp := some ⟨false, 0⟩ }

/-- R171: `CLRERR` sets `ERRCODE` to 0 and changes nothing else. -/
def Obligations.ClrerrResult : Prop :=
  ∀ s : State, exec .clrerr s = .next { s with errcode := 0, rsp := some ⟨false, 0⟩ }

/-- R172: the state after `CLEAR` equals the state after reset (its response and the host's inputs are the ports). -/
def Obligations.ClearResult : Prop :=
  ∀ s : State, exec .clear s = .next { State.reset with rsp := some ⟨false, 0⟩, inputs := s.inputs }

/-! ### Quarter-round, double round, permutation -/

/-- R90, R92: the quarter-round in place at four pairwise distinct indices gives the four words of the quarter-round
there and leaves the other twelve; it equals the twelve statements done in place one after another; and two of them
on disjoint index sets commute (the last two are the spec's own derivations). -/
def Obligations.QuarterRoundInPlace : Prop :=
  (∀ (v : Vector Word 16) (i j k l : Fin 16), [i, j, k, l].Nodup →
    let q := qr v[i] v[j] v[k] v[l]
    let r := qrAt v i j k l
    r[i] = q.a ∧ r[j] = q.b ∧ r[k] = q.c ∧ r[l] = q.d ∧
    (∀ m : Fin 16, m ∉ [i, j, k, l] → r[m] = v[m]) ∧
    (let plus (v : Vector Word 16) (p q : Fin 16) := v.set p (v[p] + v[q])
     let rot (v : Vector Word 16) (p q : Fin 16) (n : Nat) := (v.set p ((v[p] ^^^ v[q]).rotateLeft n))
     rot (plus (rot (plus (rot (plus (rot (plus v i j) l i 16) k l) j k 12) i j) l i 8) k l) j k 7 = r)) ∧
  (∀ (v : Vector Word 16) (i j k l i' j' k' l' : Fin 16), [i, j, k, l, i', j', k', l'].Nodup →
    qrAt (qrAt v i j k l) i' j' k' l' = qrAt (qrAt v i' j' k' l') i j k l)

/-- R91: `QR a,b,c,d` with pairwise distinct indices gives the quarter-round's words at the four indices of `X`, and
changes nothing else, in any state. -/
def Obligations.QrResult : Prop :=
  ∀ (s : State) (a b c d : Fin 16), [a, b, c, d].Nodup → ∃ t : State, exec (.qr a b c d) s = .next t ∧
    (let q := qr s.x[a] s.x[b] s.x[c] s.x[d]
     t.x[a] = q.a ∧ t.x[b] = q.b ∧ t.x[c] = q.c ∧ t.x[d] = q.d) ∧
    (∀ m : Fin 16, m ∉ [a, b, c, d] → t.x[m] = s.x[m]) ∧
    t = { s with x := t.x, rsp := some ⟨false, 0⟩ }

/-- R75, R91: `QR` with indices that are not pairwise distinct is rejected with `E_ILLCMD` and leaves `X`. The decoder
passes no such command to `exec` (log 5). -/
def Obligations.QrAliasedRejected : Prop :=
  ∀ (s : State) (a b c d : Fin 16), ¬ [a, b, c, d].Nodup →
    exec (.qr a b c d) s = .next (rejected 5 s)

/-- R100, R102: `DROUND` does the eight quarter-rounds of R100 on `X` in order, and changes nothing else. -/
def Obligations.DroundResult : Prop :=
  ∀ s : State, exec .dround s =
    .next { s with x := applyGroups (columnGroups ++ diagonalGroups) s.x, rsp := some ⟨false, 0⟩ }

/-- R100 (the spec's own derivation): the column groups, and the diagonal groups, partition the sixteen indices; the
four quarter-rounds of each stage may be done in any order, or at once. -/
def Obligations.DoubleRoundOrderFree : Prop :=
  ((columnGroups.flatMap fun g => [g.1, g.2.1, g.2.2.1, g.2.2.2]).Perm (List.finRange 16)) ∧
  ((diagonalGroups.flatMap fun g => [g.1, g.2.1, g.2.2.1, g.2.2.2]).Perm (List.finRange 16)) ∧
  (∀ (v : Vector Word 16) (cs ds : List Group), cs.Perm columnGroups → ds.Perm diagonalGroups →
    dround v = applyGroups ds (applyGroups cs v)) ∧
  (∀ (v : Vector Word 16) (gs : List Group), gs = columnGroups ∨ gs = diagonalGroups → ∀ g ∈ gs,
    let q := qr v[g.1] v[g.2.1] v[g.2.2.1] v[g.2.2.2]
    let r := applyGroups gs v
    r[g.1] = q.a ∧ r[g.2.1] = q.b ∧ r[g.2.2.1] = q.c ∧ r[g.2.2.2] = q.d)

/-- R101, R103: `PERMUTE` applies the double round ten times to `X`, and changes nothing else. -/
def Obligations.PermuteResult : Prop :=
  ∀ s : State, exec .permute s = .next { s with x := dround^[10] s.x, rsp := some ⟨false, 0⟩ }

/-- R102 (the spec's own derivation): ten `DROUND` commands in a row equal one `PERMUTE`. -/
def Obligations.TenDroundsArePermute : Prop :=
  ∀ s : State, (fun r : Result => match r with | .next t => exec .dround t | r => r)^[10] (.next s) =
    exec .permute s

/-! ### Block functions -/

/-- R110 to R112, R114: with a complete key and 12-byte nonce, `CC20_BLOCK` leaves in `OUT` the permuted initial state
added word by word to the initial state, and changes nothing else. -/
def Obligations.Cc20BlockResult : Prop :=
  ∀ s : State, s.keyv = 0xFF → s.noncev.extractLsb' 0 3 = 0b111#3 → ∃ t : State, exec .cc20Block s = .next t ∧
    (let S : Vector Word 16 := #v[0x61707865, 0x3320646E, 0x79622D32, 0x6B206574,
      s.key[0], s.key[1], s.key[2], s.key[3], s.key[4], s.key[5], s.key[6], s.key[7],
      s.ictr, s.nonce[0], s.nonce[1], s.nonce[2]]
     ∀ i : Fin 16, t.out[i] = S[i] + (dround^[10] S)[i]) ∧
    t = { s with out := t.out, rsp := some ⟨false, 0⟩ }

/-- R120, R121: with a complete key and 16-byte nonce, `HCC20` leaves in `OUT[0..7]` words 0..3 and 12..15 of the
permuted state, in `OUT[8..15]` zero, and changes nothing else. -/
def Obligations.Hcc20Result : Prop :=
  ∀ s : State, s.keyv = 0xFF → s.noncev.extractLsb' 0 4 = 0b1111#4 → ∃ t : State, exec .hcc20 s = .next t ∧
    (let W : Vector Word 16 := dround^[10] #v[0x61707865, 0x3320646E, 0x79622D32, 0x6B206574,
      s.key[0], s.key[1], s.key[2], s.key[3], s.key[4], s.key[5], s.key[6], s.key[7],
      s.nonce[0], s.nonce[1], s.nonce[2], s.nonce[3]]
     (∀ i : Fin 4, t.out[i.val] = W[i.val] ∧ t.out[4 + i.val] = W[12 + i.val]) ∧
     ∀ i : Fin 8, t.out[8 + i.val] = 0) ∧
    t = { s with out := t.out, rsp := some ⟨false, 0⟩ }

/-- R122 (the spec's own derivation): HChaCha20 is the block computation with the nonce's first word in the counter
position and the feed-forward taken away. -/
def Obligations.HchachaIsBlockWithoutFeedForward : Prop :=
  ∀ (k : Vector Word 8) (n : Vector Word 4),
    let Z := hchacha20 k n
    let O := cc20Block k n[0] #v[n[1], n[2], n[3]]
    let S := cc20Init k n[0] #v[n[1], n[2], n[3]]
    ∀ i : Fin 4, Z[i.val] = O[i.val] - S[i.val] ∧ Z[4 + i.val] = O[12 + i.val] - S[12 + i.val]

/-! ### Streams -/

/-- R132: `CTR_START` with a complete key and 12-byte nonce, in any phase: the position, and the context unless the
stream is empty. -/
def Obligations.CtrStartResult : Prop :=
  ∀ s : State, s.keyv = 0xFF → s.noncev.extractLsb' 0 3 = 0b111#3 →
    exec .ctrStart s = .next (if s.len = 0
      then { s with ctr := s.ictr, rem := 0, phase := .idle, akey := #v[0, 0, 0, 0, 0, 0, 0, 0],
                    anonce := #v[0, 0, 0], rsp := some ⟨false, 0⟩ }
      else { s with ctr := s.ictr, rem := s.len, phase := .stream, akey := s.key,
                    anonce := #v[s.nonce[0], s.nonce[1], s.nonce[2]], rsp := some ⟨false, 0⟩ })

/-- R150 to R152: `XCC_START` with a complete key and 24-byte nonce, in any phase: the derived subkey and the split
nonce, zeros first, unless the stream is empty. -/
def Obligations.XccStartResult : Prop :=
  ∀ s : State, s.keyv = 0xFF → s.noncev = 0b111111 →
    exec .xccStart s = .next (if s.len = 0
      then { s with ctr := s.ictr, rem := 0, phase := .idle, akey := #v[0, 0, 0, 0, 0, 0, 0, 0],
                    anonce := #v[0, 0, 0], rsp := some ⟨false, 0⟩ }
      else { s with ctr := s.ictr, rem := s.len, phase := .stream,
                    akey := hchacha20 s.key #v[s.nonce[0], s.nonce[1], s.nonce[2], s.nonce[3]],
                    anonce := #v[0, s.nonce[4], s.nonce[5]], rsp := some ⟨false, 0⟩ })

/-- R133, R135, R137: `BLK_XOR` in a live stream, byte by byte: byte `4j+k` of `DOUT` is data XOR keystream below
`n = min(64, REM)` and 0 from `n` on; `CTR` one further modulo 2^32; `REM` less by `n`; at 0 the stream ends and its
context is zero; nothing else changes. -/
def Obligations.BlkXorResult : Prop :=
  ∀ s : State, s.phase = .stream → ∃ t : State, exec .blkXor s = .next t ∧
    (let n := min 64 s.rem.toNat
     let K := cc20Block s.akey s.ctr s.anonce
     (∀ (j : Fin 16) (k : Fin 4), byteK k t.dout[j] =
       if 4 * j.val + k.val < n then byteK k s.din[j] ^^^ byteK k K[j] else 0) ∧
     t.ctr = s.ctr + 1 ∧ t.rem.toNat = s.rem.toNat - n ∧
     (if s.rem.toNat ≤ 64
      then t.phase = .idle ∧ t.akey = #v[0, 0, 0, 0, 0, 0, 0, 0] ∧ t.anonce = #v[0, 0, 0]
      else t.phase = .stream ∧ t.akey = s.akey ∧ t.anonce = s.anonce)) ∧
    t = { s with dout := t.dout, ctr := t.ctr, rem := t.rem, phase := t.phase, akey := t.akey,
                 anonce := t.anonce, rsp := some ⟨false, 0⟩ }

/-- R133, R183: `BLK_XOR` with no live stream is rejected with `E_PHASE`. -/
def Obligations.BlkXorRejectedWhenIdle : Prop :=
  ∀ s : State, s.phase = .idle → exec .blkXor s = .next (rejected 6 s)

/-- R134, whole: the mask keeps exactly the byte lanes below `n`, and its closed forms. -/
def Obligations.BytemaskForms : Prop :=
  ∀ n j : Nat, 1 ≤ n → n ≤ 64 → j < 16 →
    (∀ k : Fin 4, byteK k (bytemask n j) = if 4 * j + k < n then 0xFF else 0) ∧
    bytemask n j = (List.range 4).foldl (fun m k => if 4 * j + k < n then m ||| (0xFF#32 <<< (8 * k)) else m) 0 ∧
    (4 * j + 4 ≤ n → bytemask n j = 0xFFFFFFFF) ∧
    (4 * j < n → n < 4 * j + 4 → (bytemask n j).toNat = 2 ^ (8 * (n - 4 * j)) - 1) ∧
    (n ≤ 4 * j → bytemask n j = 0)

/-- R153 (the spec's own derivation): `HCC20`, the subkey written to `KEY`, the split nonce to `NONCE[0..2]`, and
`CTR_START` start the same stream as `XCC_START`; they differ in `KEY`, `NONCE[0..2]` and `OUT` only. -/
def Obligations.TwoStepPathStartsSameStream : Prop :=
  ∀ s : State, s.keyv = 0xFF → s.noncev = 0b111111 →
    ∃ (t s₁ s₂ t' : State) (o ws zs : List Word) (z : Vector Word 8),
      exec .xccStart s = .next t ∧
      runScript [cmd .hcc20] s = some (o, s₁) ∧
      runScript (rdout 8) s₁ = some (z.toList, s₂) ∧
      runScript ((List.finRange 8).map (fun i => wr (.key i) z[i]) ++
        [wr (.nonce 0) 0, wr (.nonce 1) s.nonce[4], wr (.nonce 2) s.nonce[5]]) s₂ = some (ws, t') ∧
      runScript [cmd .ctrStart] t' = some (zs,
        { t with key := z, nonce := #v[0, s.nonce[4], s.nonce[5], s.nonce[3], s.nonce[4], s.nonce[5]],
                 out := s₁.out })

/-! ### Errors -/

/-- R183, R184: the four commands that need a key and a nonce check the key first, then the nonce words they use. -/
def Obligations.KeyThenNonceChecked : Prop :=
  ∀ (s : State) (p : Instr × Nat),
    p ∈ [(Instr.cc20Block, 3), (.hcc20, 4), (.ctrStart, 3), (.xccStart, 6)] →
    (s.keyv ≠ 0xFF → exec p.1 s = .next (rejected 1 s)) ∧
    (s.keyv = 0xFF → (∃ j < p.2, s.noncev.getLsbD j = false) → exec p.1 s = .next (rejected 2 s))

/-- R184, whole: a transaction reports at most one error, the first that applies in the order of R184, and answers
`OK` where none applies. -/
def Obligations.FirstErrorReported : Prop :=
  ∀ (s : State) (tr : Transaction),
    match firstError tr s with
    | some e => transact tr s = .next (rejected (errorCode e) s)
    | none => ∃ (t : State) (v : Word), transact tr s = .next t ∧ t.rsp = some ⟨false, v⟩

/-- R181, whole: a transaction answered `ERR` gave the value 0, recorded its code (1 to 15) if none was recorded, and
had no effect at all on anything else. -/
def Obligations.RejectionAllOrNothing : Prop :=
  ∀ (s t : State) (tr : Transaction) (v : Word), transact tr s = .next t → t.rsp = some ⟨true, v⟩ →
    ∃ c : BitVec 4, c ≠ 0 ∧
      t = { s with errcode := if s.errcode = 0 then c else s.errcode, rsp := some ⟨true, 0⟩ }

/-- R38, R187: no command's result depends on `ERRCODE`. -/
def Obligations.CommandsIgnoreErrcode : Prop :=
  ∀ (i : Instr) (s : State) (c : BitVec 4), ∃ t t' : State,
    exec i s = .next t ∧ exec i { s with errcode := c } = .next t' ∧
    { t' with errcode := 0 } = { t with errcode := 0 }

/-- R38: a recorded code stays until `CLRERR`, `CLEAR` or reset. -/
def Obligations.ErrcodeStaysUntilCleared : Prop :=
  ∀ s t : State, s.errcode ≠ 0 → step s = .next t → t.errcode ≠ s.errcode →
    t.errcode = 0 ∧ ∃ rest, s.inputs = .reset :: rest ∨
      s.inputs = .request (.write 0x008 .four 0x00000001) :: rest ∨
      s.inputs = .request (.write 0x008 .four 0x00000002) :: rest

/-! ### Who writes what -/

/-- R40, R91, R102, R103: the primitive commands write `X` only; rejected, `ERRCODE` only if it was 0. -/
def Obligations.PrimitiveCommandsFrame : Prop :=
  ∀ (i : Instr) (s t : State), (∃ a b c d, i = .qr a b c d) ∨ i = .dround ∨ i = .permute → exec i s = .next t →
    t = { s with x := t.x, errcode := t.errcode, rsp := t.rsp } ∧
    (t.errcode ≠ s.errcode → s.errcode = 0 ∧ t.x = s.x)

/-- R40, R114, R121: the block commands write `OUT` only; rejected, `ERRCODE` only if it was 0. -/
def Obligations.BlockCommandsFrame : Prop :=
  ∀ (i : Instr) (s t : State), i = .cc20Block ∨ i = .hcc20 → exec i s = .next t →
    t = { s with out := t.out, errcode := t.errcode, rsp := t.rsp } ∧
    (t.errcode ≠ s.errcode → s.errcode = 0 ∧ t.out = s.out)

/-- R40, R132, R133, R152: the start commands write the context and the position, `BLK_XOR` also `DOUT`; rejected,
`ERRCODE` only if it was 0, and a live stream stays as it was. -/
def Obligations.StreamCommandsFrame : Prop :=
  ∀ (i : Instr) (s t : State), exec i s = .next t →
    (i = .ctrStart ∨ i = .xccStart →
      t = { s with akey := t.akey, anonce := t.anonce, ctr := t.ctr, rem := t.rem, phase := t.phase,
                   errcode := t.errcode, rsp := t.rsp }) ∧
    (i = .blkXor →
      t = { s with dout := t.dout, akey := t.akey, anonce := t.anonce, ctr := t.ctr, rem := t.rem,
                   phase := t.phase, errcode := t.errcode, rsp := t.rsp }) ∧
    (i = .ctrStart ∨ i = .xccStart ∨ i = .blkXor → t.errcode ≠ s.errcode →
      s.errcode = 0 ∧ t = { s with errcode := t.errcode, rsp := t.rsp })

/-- R22, R23: a valid bit that is set stays set, but for `CLEAR` and reset. -/
def Obligations.ValidBitsClearedOnlyByClearOrReset : Prop :=
  ∀ (s t : State) (j : Nat), step s = .next t →
    (s.keyv.getLsbD j = true ∧ t.keyv.getLsbD j = false) ∨
      (s.noncev.getLsbD j = true ∧ t.noncev.getLsbD j = false) →
    ∃ rest, s.inputs = .reset :: rest ∨ s.inputs = .request (.write 0x008 .four 0x00000002) :: rest

/-- R33, R189: `CTR` changes only by `CTR_START`, `XCC_START`, `BLK_XOR`, `CLEAR` and reset. -/
def Obligations.CounterChangedOnlyByStreamCommands : Prop :=
  ∀ s t : State, step s = .next t → t.ctr ≠ s.ctr →
    ∃ rest, s.inputs = .reset :: rest ∨
      ∃ w ∈ [0x00000002#32, 0x00000030#32, 0x00000031#32, 0x00000032#32],
        s.inputs = .request (.write 0x008 .four w) :: rest

/-- R21, D15: the block, stream and error commands neither read nor write `X`. -/
def Obligations.OtherCommandsIgnoreX : Prop :=
  ∀ (i : Instr) (s : State) (y : Vector Word 16),
    i ∈ [Instr.nop, .clrerr, .cc20Block, .hcc20, .ctrStart, .xccStart, .blkXor] →
    ∃ t : State, exec i s = .next t ∧ exec i { s with x := y } = .next { t with x := y }

/-- R22, R36, R188, D27: no read gives anything of `KEY`, `AKEY` or `ANONCE`. -/
def Obligations.KeyMaterialUnreadable : Prop :=
  ∀ (s : State) (k ak : Vector Word 8) (an : Vector Word 3) (a : Offset) (n : AccessSize), ∃ t t' : State,
    transact (.read a n) s = .next t ∧
    transact (.read a n) { s with key := k, akey := ak, anonce := an } = .next t' ∧
    t'.rsp = t.rsp ∧ t'.errcode = t.errcode

/-- R40, R139, R154: what `BLK_XOR` gives depends on `AKEY`, `ANONCE`, `CTR`, `REM`, `DIN` alone, and what a start
command gives on `KEY`, `NONCE`, `ICTR`, `LEN` and the valid bits alone. -/
def Obligations.StreamDependsOnNamedRegistersOnly : Prop :=
  ∀ s s' t t' : State,
    (s.phase = s'.phase → s.akey = s'.akey → s.anonce = s'.anonce → s.ctr = s'.ctr → s.rem = s'.rem →
      s.din = s'.din → s.phase = .stream → exec .blkXor s = .next t → exec .blkXor s' = .next t' →
      t.dout = t'.dout ∧ t.ctr = t'.ctr ∧ t.rem = t'.rem ∧ t.phase = t'.phase ∧ t.akey = t'.akey ∧
        t.anonce = t'.anonce) ∧
    (s.key = s'.key → s.keyv = s'.keyv → s.nonce = s'.nonce → s.noncev = s'.noncev → s.ictr = s'.ictr →
      s.len = s'.len → ∀ i, i = .ctrStart ∨ i = .xccStart → exec i s = .next t → exec i s' = .next t' →
      t.rsp = some ⟨false, 0⟩ →
      t.akey = t'.akey ∧ t.anonce = t'.anonce ∧ t.ctr = t'.ctr ∧ t.rem = t'.rem ∧ t.phase = t'.phase)

/-- R57: a transaction repeated with none between has the effect of one, but for the commands `QR`, `DROUND`,
`PERMUTE` and `BLK_XOR`. -/
def Obligations.RepeatedTransactionIsIdempotent : Prop :=
  ∀ (s t : State) (tr : Transaction),
    (∀ w i, tr = .write 0x008 .four w → decode w = .ok i →
      i ∈ [Instr.nop, .clrerr, .clear, .cc20Block, .hcc20, .ctrStart, .xccStart]) →
    transact tr s = .next t → transact tr t = .next t

/-! ### Invariants -/

/-- R22, R23, R34, R36, R38, R182: every step keeps the invariant, from every state that has it. -/
def Obligations.StepKeepsInvariant : Prop :=
  ∀ s t : State, UnitInv s → step s = .next t → UnitInv t

/-- R39: the reset state has the invariant. -/
def Obligations.ResetHasInvariant : Prop :=
  ∀ l : List HostInput, UnitInv (setInputs l State.reset)

/-! ### The functions the unit realises -/

/-- R10 (the spec's own derivation): `words_le` and `bytes_le` are each other's inverse. -/
def Obligations.WordsBytesInverse : Prop :=
  (∀ s : List Byte, s.length % 4 = 0 → bytesLe (wordsLe s) = s) ∧ (∀ ws : List Word, wordsLe (bytesLe ws) = ws)

/-- R131, R155 (the spec's own derivation): `ctr_xor` and `xchacha20` keep the length and are their own inverse. -/
def Obligations.CounterModeSelfInverse : Prop :=
  (∀ (k : Vector Word 8) (n : Vector Word 3) (c : Word) (d : List Byte),
    (ctrXor k n c d).length = d.length ∧ ctrXor k n c (ctrXor k n c d) = d) ∧
  (∀ (k : Vector Word 8) (n : Vector Word 6) (c : Word) (d : List Byte),
    (xchacha20 k n d c).length = d.length ∧ xchacha20 k n (xchacha20 k n d c) c = d)

/-- R138: a stream may be cut at any multiple of 64 bytes and continued with the counter advanced by the number of
blocks done. -/
def Obligations.KeystreamContinuity : Prop :=
  ∀ (k : Vector Word 8) (n : Vector Word 3) (c : Word) (m : Nat) (d e : List Byte), d.length = 64 * m →
    ctrXor k n c (d ++ e) = ctrXor k n c d ++ ctrXor k n (c + BitVec.ofNat 32 m) e

/-- R135, R136, R205 (R136 is the spec's own derivation): in a live stream, `ldblk`, `BLK_XOR`, `rdblk` for each block
of the data give `ctr_xor` of the data; then the stream has ended, `REM` is 0 and `CTR` has advanced by the blocks. -/
def Obligations.StreamRealisesCounterMode : Prop :=
  ∀ (s : State) (data : List Byte), s.phase = .stream → s.rem ≠ 0 → data.length = s.rem.toNat →
    ∃ t : State, driveStream (blockCount data.length) data s = some (ctrXor s.akey s.anonce s.ctr data, t) ∧
      t.phase = .idle ∧ t.rem = 0 ∧ t.ctr = s.ctr + BitVec.ofNat 32 (blockCount data.length)

/-- R158, R159: the payload of `encrypt` is the XChaCha20 ciphertext with counter 0, then the nonce; it is 24 bytes
longer than the message, and the unit ends in the reset state. The random draw is an argument (log 8). -/
def Obligations.EncryptGivesPayload : Prop :=
  ∀ (s : State) (m key nonce : List Byte), key.length = 32 → nonce.length = 24 → m.length < 2 ^ 32 →
    ∃ (k : Vector Word 8) (n : Vector Word 6) (t : State), k.toList = wordsLe key ∧ n.toList = wordsLe nonce ∧
      encrypt m key (some nonce) s = .ok (xchacha20 k n m 0 ++ nonce, t) ∧
      (xchacha20 k n m 0 ++ nonce).length = m.length + 24 ∧ ResetValues t

/-- R162 (the spec's own derivation): decrypting, on a unit in any state, the payload encrypted on a unit in any state
gives the message back. The random draw is an argument (log 8). -/
def Obligations.DecryptInvertsEncrypt : Prop :=
  ∀ (s s' : State) (m key nonce : List Byte), key.length = 32 → nonce.length = 24 → m.length < 2 ^ 32 →
    ∃ (p : List Byte) (t t' : State), encrypt m key (some nonce) s = .ok (p, t) ∧
      decrypt p key s' = .ok (m, t')

/-- R211 (from R138): a message of any length, cut into streams continued with the counter advanced by the blocks
already done, is encrypted as one XChaCha20 call would. The cutting procedure is the model's choice (log 8): equal cuts
of `b` blocks, each a whole call from `CLEAR` to `CLEAR`, at most `m` of them. -/
def Obligations.LongMessageInChunks : Prop :=
  ∀ (s : State) (b m : Nat) (c : Word) (key nonce data : List Byte), key.length = 32 → nonce.length = 24 →
    0 < b → 64 * b < 2 ^ 32 → data.length ≤ m * (64 * b) →
    ∃ (k : Vector Word 8) (n : Vector Word 6) (t : State), k.toList = wordsLe key ∧ n.toList = wordsLe nonce ∧
      driveChunks b m key nonce c data s = .ok (xchacha20 k n data c, t)

/-- R159 to R161, R191: a key that is not 32 bytes, a nonce that is not exactly of the length its command needs, a
payload shorter than 24 bytes and a random source that does not supply 24 bytes (the draw is an argument, log 8) fail
the call with the error of their own, whatever state the unit is in; with the exact lengths the registers are loaded.
`driveChunks` is the model's procedure for R211 (log 8). -/
def Obligations.DriverValidatesInputs : Prop :=
  ∀ (s : State) (m p key nonce data : List Byte) (draw : Option (List Byte)) (b k : Nat) (c0 : Word),
    (key.length ≠ 32 → encrypt m key draw s = .error .invalidKeyLength ∧
      decrypt p key s = .error .invalidKeyLength ∧
      driveChunks b k key nonce c0 data s = .error .invalidKeyLength ∧
      ∀ c, loadScript c key nonce = .error .invalidKeyLength) ∧
    (key.length = 32 → ∀ q ∈ [(KeyedCommand.cc20Block, 12), (.hcc20, 16), (.ctrStart, 12), (.xccStart, 24)],
      loadScript q.1 key nonce =
        if nonce.length = q.2 then .ok (ldkey key ++ ldnonce nonce) else .error .invalidNonceLength) ∧
    (key.length = 32 → nonce.length ≠ 24 → driveChunks b k key nonce c0 data s = .error .invalidNonceLength) ∧
    (key.length = 32 → (∀ d, draw = some d → d.length ≠ 24) →
      encrypt m key draw s = .error .randomSourceUnavailable) ∧
    (key.length = 32 → p.length < 24 → decrypt p key s = .error .malformedCiphertext)
end

