-- ==== Sys2Proof/Laws/Cipher.lean ====
section
/-! SUPPORT. The word arithmetic and the cipher functions, unfolded once each: the elements of an array after a
quarter-round (R92), of the block functions (R112, R120), of the XORed block (R133), and the byte masks (R134). -/

namespace Sys2Proof.Machine

theorem qrAt_eq (v : Vector Word 16) (i j k l : Fin 16) :
    qrAt v i j k l = (((v.set i (qr v[i] v[j] v[k] v[l]).a).set j (qr v[i] v[j] v[k] v[l]).b).set k
      (qr v[i] v[j] v[k] v[l]).c).set l (qr v[i] v[j] v[k] v[l]).d := by
  unfold qrAt; rfl

/-- Element `m` after a quarter-round in place: the last index that equals `m` decides (R92). -/
theorem qrAt_getElem (v : Vector Word 16) (i j k l m : Fin 16) :
    (qrAt v i j k l)[m] = if m = l then (qr v[i] v[j] v[k] v[l]).d else if m = k then (qr v[i] v[j] v[k] v[l]).c
      else if m = j then (qr v[i] v[j] v[k] v[l]).b else if m = i then (qr v[i] v[j] v[k] v[l]).a else v[m] := by
  simp only [qrAt_eq, Fin.getElem_fin, Vector.getElem_set, Fin.ext_iff, eq_comm]

theorem permute_eq_iterate (v : Vector Word 16) : permute v = dround^[10] v := by unfold permute; rfl

/-- Output word `i` of the block function (R112). -/
theorem cc20Block_getElem (k : Vector Word 8) (c : Word) (n : Vector Word 3) (i : Fin 16) :
    (cc20Block k c n)[i] = (cc20Init k c n)[i] + (permute (cc20Init k c n))[i] := by
  simp [cc20Block, add32]

/-- The subkey words of HChaCha20 (R120). -/
theorem hchacha20_eq (k : Vector Word 8) (n : Vector Word 4) :
    hchacha20 k n = outerRows (permute (hcc20Init k n)) := rfl

/-- Word `j` of the XORed block (R133). -/
theorem xorBlock_getElem (din ks : Vector Word 16) (n : Nat) (j : Fin 16) :
    (xorBlock din ks n)[j] = (din[j] ^^^ ks[j]) &&& bytemask n j := by
  simp [xorBlock, xor32]

@[simp] theorem bytesOfWord_length (w : Word) : (bytesOfWord w).length = 4 := rfl

@[simp] theorem bytesLe_nil : bytesLe [] = [] := rfl

@[simp] theorem bytesLe_cons (w : Word) (ws : List Word) : bytesLe (w :: ws) = bytesOfWord w ++ bytesLe ws := rfl

@[simp] theorem bytesLe_length (ws : List Word) : (bytesLe ws).length = 4 * ws.length := by
  induction ws with
  | nil => rfl
  | cons w ws ih => simp [ih]; omega

@[simp] theorem wordsLe_cons (b0 b1 b2 b3 : Byte) (rest : List Byte) :
    wordsLe (b0 :: b1 :: b2 :: b3 :: rest) = le32 b0 b1 b2 b3 :: wordsLe rest := rfl

end Sys2Proof.Machine
end

