-- ==== Sys2Proof/Laws/State.lean ====
section
/-! SUPPORT. What each named update of the state leaves in each field (Machine/Ops.lean), true by `rfl`: later proofs
read a field of an updated state by these lemmas and unfold no record update. -/

namespace Sys2Proof.Machine

section
variable (v : Vector Word 16) (s : State)

@[simp] theorem setX_x : (setX v s).x = v := rfl
@[simp] theorem setX_key : (setX v s).key = s.key := rfl
@[simp] theorem setX_keyv : (setX v s).keyv = s.keyv := rfl
@[simp] theorem setX_nonce : (setX v s).nonce = s.nonce := rfl
@[simp] theorem setX_noncev : (setX v s).noncev = s.noncev := rfl
@[simp] theorem setX_out : (setX v s).out = s.out := rfl
@[simp] theorem setX_din : (setX v s).din = s.din := rfl
@[simp] theorem setX_dout : (setX v s).dout = s.dout := rfl
@[simp] theorem setX_ictr : (setX v s).ictr = s.ictr := rfl
@[simp] theorem setX_len : (setX v s).len = s.len := rfl
@[simp] theorem setX_ctr : (setX v s).ctr = s.ctr := rfl
@[simp] theorem setX_rem : (setX v s).rem = s.rem := rfl
@[simp] theorem setX_errcode : (setX v s).errcode = s.errcode := rfl
@[simp] theorem setX_phase : (setX v s).phase = s.phase := rfl
@[simp] theorem setX_akey : (setX v s).akey = s.akey := rfl
@[simp] theorem setX_anonce : (setX v s).anonce = s.anonce := rfl
@[simp] theorem setX_rsp : (setX v s).rsp = s.rsp := rfl
@[simp] theorem setX_inputs : (setX v s).inputs = s.inputs := rfl

end

section
variable (v : Vector Word 16) (s : State)

@[simp] theorem setOut_x : (setOut v s).x = s.x := rfl
@[simp] theorem setOut_key : (setOut v s).key = s.key := rfl
@[simp] theorem setOut_keyv : (setOut v s).keyv = s.keyv := rfl
@[simp] theorem setOut_nonce : (setOut v s).nonce = s.nonce := rfl
@[simp] theorem setOut_noncev : (setOut v s).noncev = s.noncev := rfl
@[simp] theorem setOut_out : (setOut v s).out = v := rfl
@[simp] theorem setOut_din : (setOut v s).din = s.din := rfl
@[simp] theorem setOut_dout : (setOut v s).dout = s.dout := rfl
@[simp] theorem setOut_ictr : (setOut v s).ictr = s.ictr := rfl
@[simp] theorem setOut_len : (setOut v s).len = s.len := rfl
@[simp] theorem setOut_ctr : (setOut v s).ctr = s.ctr := rfl
@[simp] theorem setOut_rem : (setOut v s).rem = s.rem := rfl
@[simp] theorem setOut_errcode : (setOut v s).errcode = s.errcode := rfl
@[simp] theorem setOut_phase : (setOut v s).phase = s.phase := rfl
@[simp] theorem setOut_akey : (setOut v s).akey = s.akey := rfl
@[simp] theorem setOut_anonce : (setOut v s).anonce = s.anonce := rfl
@[simp] theorem setOut_rsp : (setOut v s).rsp = s.rsp := rfl
@[simp] theorem setOut_inputs : (setOut v s).inputs = s.inputs := rfl

end

section
variable (v : Vector Word 16) (s : State)

@[simp] theorem setDin_x : (setDin v s).x = s.x := rfl
@[simp] theorem setDin_key : (setDin v s).key = s.key := rfl
@[simp] theorem setDin_keyv : (setDin v s).keyv = s.keyv := rfl
@[simp] theorem setDin_nonce : (setDin v s).nonce = s.nonce := rfl
@[simp] theorem setDin_noncev : (setDin v s).noncev = s.noncev := rfl
@[simp] theorem setDin_out : (setDin v s).out = s.out := rfl
@[simp] theorem setDin_din : (setDin v s).din = v := rfl
@[simp] theorem setDin_dout : (setDin v s).dout = s.dout := rfl
@[simp] theorem setDin_ictr : (setDin v s).ictr = s.ictr := rfl
@[simp] theorem setDin_len : (setDin v s).len = s.len := rfl
@[simp] theorem setDin_ctr : (setDin v s).ctr = s.ctr := rfl
@[simp] theorem setDin_rem : (setDin v s).rem = s.rem := rfl
@[simp] theorem setDin_errcode : (setDin v s).errcode = s.errcode := rfl
@[simp] theorem setDin_phase : (setDin v s).phase = s.phase := rfl
@[simp] theorem setDin_akey : (setDin v s).akey = s.akey := rfl
@[simp] theorem setDin_anonce : (setDin v s).anonce = s.anonce := rfl
@[simp] theorem setDin_rsp : (setDin v s).rsp = s.rsp := rfl
@[simp] theorem setDin_inputs : (setDin v s).inputs = s.inputs := rfl

end

section
variable (v : Vector Word 16) (s : State)

@[simp] theorem setDout_x : (setDout v s).x = s.x := rfl
@[simp] theorem setDout_key : (setDout v s).key = s.key := rfl
@[simp] theorem setDout_keyv : (setDout v s).keyv = s.keyv := rfl
@[simp] theorem setDout_nonce : (setDout v s).nonce = s.nonce := rfl
@[simp] theorem setDout_noncev : (setDout v s).noncev = s.noncev := rfl
@[simp] theorem setDout_out : (setDout v s).out = s.out := rfl
@[simp] theorem setDout_din : (setDout v s).din = s.din := rfl
@[simp] theorem setDout_dout : (setDout v s).dout = v := rfl
@[simp] theorem setDout_ictr : (setDout v s).ictr = s.ictr := rfl
@[simp] theorem setDout_len : (setDout v s).len = s.len := rfl
@[simp] theorem setDout_ctr : (setDout v s).ctr = s.ctr := rfl
@[simp] theorem setDout_rem : (setDout v s).rem = s.rem := rfl
@[simp] theorem setDout_errcode : (setDout v s).errcode = s.errcode := rfl
@[simp] theorem setDout_phase : (setDout v s).phase = s.phase := rfl
@[simp] theorem setDout_akey : (setDout v s).akey = s.akey := rfl
@[simp] theorem setDout_anonce : (setDout v s).anonce = s.anonce := rfl
@[simp] theorem setDout_rsp : (setDout v s).rsp = s.rsp := rfl
@[simp] theorem setDout_inputs : (setDout v s).inputs = s.inputs := rfl

end

section
variable (v : Word) (s : State)

@[simp] theorem setIctr_x : (setIctr v s).x = s.x := rfl
@[simp] theorem setIctr_key : (setIctr v s).key = s.key := rfl
@[simp] theorem setIctr_keyv : (setIctr v s).keyv = s.keyv := rfl
@[simp] theorem setIctr_nonce : (setIctr v s).nonce = s.nonce := rfl
@[simp] theorem setIctr_noncev : (setIctr v s).noncev = s.noncev := rfl
@[simp] theorem setIctr_out : (setIctr v s).out = s.out := rfl
@[simp] theorem setIctr_din : (setIctr v s).din = s.din := rfl
@[simp] theorem setIctr_dout : (setIctr v s).dout = s.dout := rfl
@[simp] theorem setIctr_ictr : (setIctr v s).ictr = v := rfl
@[simp] theorem setIctr_len : (setIctr v s).len = s.len := rfl
@[simp] theorem setIctr_ctr : (setIctr v s).ctr = s.ctr := rfl
@[simp] theorem setIctr_rem : (setIctr v s).rem = s.rem := rfl
@[simp] theorem setIctr_errcode : (setIctr v s).errcode = s.errcode := rfl
@[simp] theorem setIctr_phase : (setIctr v s).phase = s.phase := rfl
@[simp] theorem setIctr_akey : (setIctr v s).akey = s.akey := rfl
@[simp] theorem setIctr_anonce : (setIctr v s).anonce = s.anonce := rfl
@[simp] theorem setIctr_rsp : (setIctr v s).rsp = s.rsp := rfl
@[simp] theorem setIctr_inputs : (setIctr v s).inputs = s.inputs := rfl

end

section
variable (v : Word) (s : State)

@[simp] theorem setLen_x : (setLen v s).x = s.x := rfl
@[simp] theorem setLen_key : (setLen v s).key = s.key := rfl
@[simp] theorem setLen_keyv : (setLen v s).keyv = s.keyv := rfl
@[simp] theorem setLen_nonce : (setLen v s).nonce = s.nonce := rfl
@[simp] theorem setLen_noncev : (setLen v s).noncev = s.noncev := rfl
@[simp] theorem setLen_out : (setLen v s).out = s.out := rfl
@[simp] theorem setLen_din : (setLen v s).din = s.din := rfl
@[simp] theorem setLen_dout : (setLen v s).dout = s.dout := rfl
@[simp] theorem setLen_ictr : (setLen v s).ictr = s.ictr := rfl
@[simp] theorem setLen_len : (setLen v s).len = v := rfl
@[simp] theorem setLen_ctr : (setLen v s).ctr = s.ctr := rfl
@[simp] theorem setLen_rem : (setLen v s).rem = s.rem := rfl
@[simp] theorem setLen_errcode : (setLen v s).errcode = s.errcode := rfl
@[simp] theorem setLen_phase : (setLen v s).phase = s.phase := rfl
@[simp] theorem setLen_akey : (setLen v s).akey = s.akey := rfl
@[simp] theorem setLen_anonce : (setLen v s).anonce = s.anonce := rfl
@[simp] theorem setLen_rsp : (setLen v s).rsp = s.rsp := rfl
@[simp] theorem setLen_inputs : (setLen v s).inputs = s.inputs := rfl

end

section
variable (c r : Word) (s : State)

@[simp] theorem setPosition_x : (setPosition c r s).x = s.x := rfl
@[simp] theorem setPosition_key : (setPosition c r s).key = s.key := rfl
@[simp] theorem setPosition_keyv : (setPosition c r s).keyv = s.keyv := rfl
@[simp] theorem setPosition_nonce : (setPosition c r s).nonce = s.nonce := rfl
@[simp] theorem setPosition_noncev : (setPosition c r s).noncev = s.noncev := rfl
@[simp] theorem setPosition_out : (setPosition c r s).out = s.out := rfl
@[simp] theorem setPosition_din : (setPosition c r s).din = s.din := rfl
@[simp] theorem setPosition_dout : (setPosition c r s).dout = s.dout := rfl
@[simp] theorem setPosition_ictr : (setPosition c r s).ictr = s.ictr := rfl
@[simp] theorem setPosition_len : (setPosition c r s).len = s.len := rfl
@[simp] theorem setPosition_ctr : (setPosition c r s).ctr = c := rfl
@[simp] theorem setPosition_rem : (setPosition c r s).rem = r := rfl
@[simp] theorem setPosition_errcode : (setPosition c r s).errcode = s.errcode := rfl
@[simp] theorem setPosition_phase : (setPosition c r s).phase = s.phase := rfl
@[simp] theorem setPosition_akey : (setPosition c r s).akey = s.akey := rfl
@[simp] theorem setPosition_anonce : (setPosition c r s).anonce = s.anonce := rfl
@[simp] theorem setPosition_rsp : (setPosition c r s).rsp = s.rsp := rfl
@[simp] theorem setPosition_inputs : (setPosition c r s).inputs = s.inputs := rfl

end

section
variable (p : Phase) (k : Vector Word 8) (n : Vector Word 3) (s : State)

@[simp] theorem setContext_x : (setContext p k n s).x = s.x := rfl
@[simp] theorem setContext_key : (setContext p k n s).key = s.key := rfl
@[simp] theorem setContext_keyv : (setContext p k n s).keyv = s.keyv := rfl
@[simp] theorem setContext_nonce : (setContext p k n s).nonce = s.nonce := rfl
@[simp] theorem setContext_noncev : (setContext p k n s).noncev = s.noncev := rfl
@[simp] theorem setContext_out : (setContext p k n s).out = s.out := rfl
@[simp] theorem setContext_din : (setContext p k n s).din = s.din := rfl
@[simp] theorem setContext_dout : (setContext p k n s).dout = s.dout := rfl
@[simp] theorem setContext_ictr : (setContext p k n s).ictr = s.ictr := rfl
@[simp] theorem setContext_len : (setContext p k n s).len = s.len := rfl
@[simp] theorem setContext_ctr : (setContext p k n s).ctr = s.ctr := rfl
@[simp] theorem setContext_rem : (setContext p k n s).rem = s.rem := rfl
@[simp] theorem setContext_errcode : (setContext p k n s).errcode = s.errcode := rfl
@[simp] theorem setContext_phase : (setContext p k n s).phase = p := rfl
@[simp] theorem setContext_akey : (setContext p k n s).akey = k := rfl
@[simp] theorem setContext_anonce : (setContext p k n s).anonce = n := rfl
@[simp] theorem setContext_rsp : (setContext p k n s).rsp = s.rsp := rfl
@[simp] theorem setContext_inputs : (setContext p k n s).inputs = s.inputs := rfl

end

section
variable (i : Fin 8) (v : Word) (s : State)

@[simp] theorem loadKey_x : (loadKey i v s).x = s.x := rfl
@[simp] theorem loadKey_key : (loadKey i v s).key = s.key.set i v := rfl
@[simp] theorem loadKey_keyv : (loadKey i v s).keyv = setValid s.keyv i := rfl
@[simp] theorem loadKey_nonce : (loadKey i v s).nonce = s.nonce := rfl
@[simp] theorem loadKey_noncev : (loadKey i v s).noncev = s.noncev := rfl
@[simp] theorem loadKey_out : (loadKey i v s).out = s.out := rfl
@[simp] theorem loadKey_din : (loadKey i v s).din = s.din := rfl
@[simp] theorem loadKey_dout : (loadKey i v s).dout = s.dout := rfl
@[simp] theorem loadKey_ictr : (loadKey i v s).ictr = s.ictr := rfl
@[simp] theorem loadKey_len : (loadKey i v s).len = s.len := rfl
@[simp] theorem loadKey_ctr : (loadKey i v s).ctr = s.ctr := rfl
@[simp] theorem loadKey_rem : (loadKey i v s).rem = s.rem := rfl
@[simp] theorem loadKey_errcode : (loadKey i v s).errcode = s.errcode := rfl
@[simp] theorem loadKey_phase : (loadKey i v s).phase = s.phase := rfl
@[simp] theorem loadKey_akey : (loadKey i v s).akey = s.akey := rfl
@[simp] theorem loadKey_anonce : (loadKey i v s).anonce = s.anonce := rfl
@[simp] theorem loadKey_rsp : (loadKey i v s).rsp = s.rsp := rfl
@[simp] theorem loadKey_inputs : (loadKey i v s).inputs = s.inputs := rfl

end

section
variable (i : Fin 6) (v : Word) (s : State)

@[simp] theorem loadNonce_x : (loadNonce i v s).x = s.x := rfl
@[simp] theorem loadNonce_key : (loadNonce i v s).key = s.key := rfl
@[simp] theorem loadNonce_keyv : (loadNonce i v s).keyv = s.keyv := rfl
@[simp] theorem loadNonce_nonce : (loadNonce i v s).nonce = s.nonce.set i v := rfl
@[simp] theorem loadNonce_noncev : (loadNonce i v s).noncev = setValid s.noncev i := rfl
@[simp] theorem loadNonce_out : (loadNonce i v s).out = s.out := rfl
@[simp] theorem loadNonce_din : (loadNonce i v s).din = s.din := rfl
@[simp] theorem loadNonce_dout : (loadNonce i v s).dout = s.dout := rfl
@[simp] theorem loadNonce_ictr : (loadNonce i v s).ictr = s.ictr := rfl
@[simp] theorem loadNonce_len : (loadNonce i v s).len = s.len := rfl
@[simp] theorem loadNonce_ctr : (loadNonce i v s).ctr = s.ctr := rfl
@[simp] theorem loadNonce_rem : (loadNonce i v s).rem = s.rem := rfl
@[simp] theorem loadNonce_errcode : (loadNonce i v s).errcode = s.errcode := rfl
@[simp] theorem loadNonce_phase : (loadNonce i v s).phase = s.phase := rfl
@[simp] theorem loadNonce_akey : (loadNonce i v s).akey = s.akey := rfl
@[simp] theorem loadNonce_anonce : (loadNonce i v s).anonce = s.anonce := rfl
@[simp] theorem loadNonce_rsp : (loadNonce i v s).rsp = s.rsp := rfl
@[simp] theorem loadNonce_inputs : (loadNonce i v s).inputs = s.inputs := rfl

end

section
variable (c : BitVec 4) (s : State)

@[simp] theorem setErrcode_x : (setErrcode c s).x = s.x := rfl
@[simp] theorem setErrcode_key : (setErrcode c s).key = s.key := rfl
@[simp] theorem setErrcode_keyv : (setErrcode c s).keyv = s.keyv := rfl
@[simp] theorem setErrcode_nonce : (setErrcode c s).nonce = s.nonce := rfl
@[simp] theorem setErrcode_noncev : (setErrcode c s).noncev = s.noncev := rfl
@[simp] theorem setErrcode_out : (setErrcode c s).out = s.out := rfl
@[simp] theorem setErrcode_din : (setErrcode c s).din = s.din := rfl
@[simp] theorem setErrcode_dout : (setErrcode c s).dout = s.dout := rfl
@[simp] theorem setErrcode_ictr : (setErrcode c s).ictr = s.ictr := rfl
@[simp] theorem setErrcode_len : (setErrcode c s).len = s.len := rfl
@[simp] theorem setErrcode_ctr : (setErrcode c s).ctr = s.ctr := rfl
@[simp] theorem setErrcode_rem : (setErrcode c s).rem = s.rem := rfl
@[simp] theorem setErrcode_errcode : (setErrcode c s).errcode = c := rfl
@[simp] theorem setErrcode_phase : (setErrcode c s).phase = s.phase := rfl
@[simp] theorem setErrcode_akey : (setErrcode c s).akey = s.akey := rfl
@[simp] theorem setErrcode_anonce : (setErrcode c s).anonce = s.anonce := rfl
@[simp] theorem setErrcode_rsp : (setErrcode c s).rsp = s.rsp := rfl
@[simp] theorem setErrcode_inputs : (setErrcode c s).inputs = s.inputs := rfl

end

section
variable (r : Response) (s : State)

@[simp] theorem respond_x : (respond r s).x = s.x := rfl
@[simp] theorem respond_key : (respond r s).key = s.key := rfl
@[simp] theorem respond_keyv : (respond r s).keyv = s.keyv := rfl
@[simp] theorem respond_nonce : (respond r s).nonce = s.nonce := rfl
@[simp] theorem respond_noncev : (respond r s).noncev = s.noncev := rfl
@[simp] theorem respond_out : (respond r s).out = s.out := rfl
@[simp] theorem respond_din : (respond r s).din = s.din := rfl
@[simp] theorem respond_dout : (respond r s).dout = s.dout := rfl
@[simp] theorem respond_ictr : (respond r s).ictr = s.ictr := rfl
@[simp] theorem respond_len : (respond r s).len = s.len := rfl
@[simp] theorem respond_ctr : (respond r s).ctr = s.ctr := rfl
@[simp] theorem respond_rem : (respond r s).rem = s.rem := rfl
@[simp] theorem respond_errcode : (respond r s).errcode = s.errcode := rfl
@[simp] theorem respond_phase : (respond r s).phase = s.phase := rfl
@[simp] theorem respond_akey : (respond r s).akey = s.akey := rfl
@[simp] theorem respond_anonce : (respond r s).anonce = s.anonce := rfl
@[simp] theorem respond_rsp : (respond r s).rsp = some r := rfl
@[simp] theorem respond_inputs : (respond r s).inputs = s.inputs := rfl

end

section
variable (l : List HostInput) (s : State)

@[simp] theorem setInputs_x : (setInputs l s).x = s.x := rfl
@[simp] theorem setInputs_key : (setInputs l s).key = s.key := rfl
@[simp] theorem setInputs_keyv : (setInputs l s).keyv = s.keyv := rfl
@[simp] theorem setInputs_nonce : (setInputs l s).nonce = s.nonce := rfl
@[simp] theorem setInputs_noncev : (setInputs l s).noncev = s.noncev := rfl
@[simp] theorem setInputs_out : (setInputs l s).out = s.out := rfl
@[simp] theorem setInputs_din : (setInputs l s).din = s.din := rfl
@[simp] theorem setInputs_dout : (setInputs l s).dout = s.dout := rfl
@[simp] theorem setInputs_ictr : (setInputs l s).ictr = s.ictr := rfl
@[simp] theorem setInputs_len : (setInputs l s).len = s.len := rfl
@[simp] theorem setInputs_ctr : (setInputs l s).ctr = s.ctr := rfl
@[simp] theorem setInputs_rem : (setInputs l s).rem = s.rem := rfl
@[simp] theorem setInputs_errcode : (setInputs l s).errcode = s.errcode := rfl
@[simp] theorem setInputs_phase : (setInputs l s).phase = s.phase := rfl
@[simp] theorem setInputs_akey : (setInputs l s).akey = s.akey := rfl
@[simp] theorem setInputs_anonce : (setInputs l s).anonce = s.anonce := rfl
@[simp] theorem setInputs_rsp : (setInputs l s).rsp = s.rsp := rfl
@[simp] theorem setInputs_inputs : (setInputs l s).inputs = l := rfl

end

end Sys2Proof.Machine
end

