-- ==== Sys2Proof/Laws/Ops.lean ====
section
/-! SUPPORT. What the shared operations can do, said once each: the responses and the exception (R181), the key and
nonce checks (R183, R184), the starting and the ending of a stream (R132, R135), the commands (each answers a next
state and keeps the host's inputs). -/

namespace Sys2Proof.Machine

@[simp] theorem acceptRead_eq_respond (v : Word) (s : State) : acceptRead v s = respond ⟨false, v⟩ s := rfl

@[simp] theorem accept_eq_respond (s : State) : accept s = respond ⟨false, 0⟩ s := rfl

@[simp] theorem clearError_eq_setErrcode (s : State) : clearError s = setErrcode 0 s := rfl

theorem reject_eq_respond (e : ErrorKind) (s : State) :
    reject e s = respond ⟨true, 0⟩ (setErrcode (if s.errcode = 0 then errorCode e else s.errcode) s) := rfl

theorem errorCode_ne_zero (e : ErrorKind) : errorCode e ≠ 0 := by cases e <;> decide

/-- A rejection leaves exactly what R181 says. -/
theorem reject_eq_rejected (e : ErrorKind) (s : State) : reject e s = rejected (errorCode e) s := rfl

/-- Sticky first (R38): a second rejection changes nothing. -/
theorem reject_after_reject (e f : ErrorKind) (s : State) : reject e (reject f s) = reject f s := by
  have hf := errorCode_ne_zero f
  simp only [reject_eq_respond, respond, setErrcode]
  split <;> simp_all

/-- The three ends of the key and nonce checks, in the order of R184. -/
theorem withKeyAndNonce_cases (m : Nat) (f : State → State) (s : State) :
    (keyComplete s = false ∧ withKeyAndNonce m f s = .next (reject .keyLen s)) ∨
    (keyComplete s = true ∧ nonceComplete m s = false ∧ withKeyAndNonce m f s = .next (reject .nonceLen s)) ∨
    (keyComplete s = true ∧ nonceComplete m s = true ∧ withKeyAndNonce m f s = .next (accept (f s))) := by
  unfold withKeyAndNonce
  cases keyComplete s <;> cases nonceComplete m s <;> simp

theorem keyComplete_iff (s : State) : keyComplete s = true ↔ s.keyv = 0xFF#8 := by simp [keyComplete]

theorem nonceComplete_iff (m : Nat) (s : State) :
    nonceComplete m s = true ↔ s.noncev.extractLsb' 0 m = BitVec.allOnes m := by simp [nonceComplete]

/-- The nonce is incomplete iff some word the command uses was not written (R183). -/
theorem nonceComplete_eq_false_iff (m : Nat) (s : State) :
    nonceComplete m s = false ↔ ∃ j < m, s.noncev.getLsbD j = false := by
  rw [← Bool.not_eq_true, nonceComplete_iff, BitVec.eq_of_getLsbD_eq_iff]
  simp

@[simp] theorem endContext_eq_setContext (s : State) :
    endContext s = setContext .idle (Vector.replicate 8 0) (Vector.replicate 3 0) s := rfl

/-- What a start leaves (R132, R152): an empty stream ends at once, another is live with the given context. -/
theorem startStream_eq (k : Vector Word 8) (n : Vector Word 3) (s : State) :
    startStream k n s = if s.len = 0
      then { s with ctr := s.ictr, rem := 0, phase := .idle, akey := Vector.replicate 8 0,
                    anonce := Vector.replicate 3 0 }
      else { s with ctr := s.ictr, rem := s.len, phase := .stream, akey := k, anonce := n } := by
  unfold startStream
  split <;> simp_all [setContext, setPosition, phaseAfterStart]

/-- The remaining length after a block does not wrap (R133): `min(64, REM)` is at most `REM`. -/
theorem rem_after_block (s : State) :
    (s.rem - BitVec.ofNat 32 (blockBytes s)).toNat = s.rem.toNat - blockBytes s := by
  have h : blockBytes s ≤ s.rem.toNat := Nat.min_le_right _ _
  have := s.rem.isLt
  rw [BitVec.toNat_sub, BitVec.toNat_ofNat]
  omega

/-- The stream ends with a block iff at most 64 bytes were left (R135). -/
theorem rem_after_block_eq_zero_iff (s : State) :
    s.rem - BitVec.ofNat 32 (blockBytes s) = 0 ↔ s.rem.toNat ≤ 64 := by
  rw [BitVec.toNat_eq, rem_after_block]
  simp only [blockBytes, BitVec.ofNat_eq_ofNat, BitVec.toNat_ofNat, Nat.zero_mod]
  omega

/-- Every command answers a next state. -/
theorem exec_answers (i : Instr) (s : State) : ∃ t, exec i s = .next t := by
  cases i <;> simp only [exec, execNop, execClrerr, execClear, execQr, execDround, execPermute, execCc20Block,
    execHcc20, execCtrStart, execXccStart, execBlkXor, withKeyAndNonce] <;> (repeat' split) <;> exact ⟨_, rfl⟩

end Sys2Proof.Machine
end

