-- ==== Sys2Proof/Laws/Commands.lean ====
section
/-! SUPPORT. What each command does, as one equation or one list of cases: `exec` unfolded once per command, so that
later proofs cite these and unfold no meaning. -/

namespace Sys2Proof.Machine

theorem exec_nop (s : State) : exec .nop s = .next (respond ⟨false, 0⟩ s) := rfl

theorem exec_clrerr (s : State) : exec .clrerr s = .next (respond ⟨false, 0⟩ (setErrcode 0 s)) := rfl

theorem exec_clear (s : State) : exec .clear s = .next (respond ⟨false, 0⟩ (clearAll s)) := rfl

theorem exec_qr {a b c d : Fin 16} (h : pairwiseDistinct a b c d = true) (s : State) :
    exec (.qr a b c d) s = .next (respond ⟨false, 0⟩ (setX (qrAt s.x a b c d) s)) := by
  simp only [exec, execQr, h, if_true, accept_eq_respond]

theorem exec_qr_aliased {a b c d : Fin 16} (h : pairwiseDistinct a b c d = false) (s : State) :
    exec (.qr a b c d) s = .next (reject .illCmd s) := by
  simp only [exec, execQr, h, Bool.false_eq_true, if_false]

theorem pairwiseDistinct_iff (a b c d : Fin 16) : pairwiseDistinct a b c d = true ↔ [a, b, c, d].Nodup := by
  simp [pairwiseDistinct]
  tauto

theorem exec_dround (s : State) : exec .dround s = .next (respond ⟨false, 0⟩ (setX (dround s.x) s)) := rfl

theorem exec_permute (s : State) : exec .permute s = .next (respond ⟨false, 0⟩ (setX (permute s.x) s)) := rfl

/-- `CC20_BLOCK` with its checks passed (R114). -/
theorem exec_cc20Block {s : State} (hk : keyComplete s = true) (hn : nonceComplete 3 s = true) :
    exec .cc20Block s = .next (respond ⟨false, 0⟩ (setOut (cc20Block s.key s.ictr (nonce12 s)) s)) := by
  simp only [exec, execCc20Block, withKeyAndNonce, hk, hn, Bool.not_true, Bool.false_eq_true, if_false,
    accept_eq_respond]

/-- `HCC20` with its checks passed (R121). -/
theorem exec_hcc20 {s : State} (hk : keyComplete s = true) (hn : nonceComplete 4 s = true) :
    exec .hcc20 s = .next (respond ⟨false, 0⟩ (setOut (padSubkey (hchacha20 s.key (nonce16 s))) s)) := by
  simp only [exec, execHcc20, withKeyAndNonce, hk, hn, Bool.not_true, Bool.false_eq_true, if_false,
    accept_eq_respond]

/-- `CTR_START` with its checks passed (R132). -/
theorem exec_ctrStart {s : State} (hk : keyComplete s = true) (hn : nonceComplete 3 s = true) :
    exec .ctrStart s = .next (respond ⟨false, 0⟩ (startStream s.key (nonce12 s) s)) := by
  simp only [exec, execCtrStart, withKeyAndNonce, hk, hn, Bool.not_true, Bool.false_eq_true, if_false,
    accept_eq_respond]

/-- `XCC_START` with its checks passed (R152). -/
theorem exec_xccStart {s : State} (hk : keyComplete s = true) (hn : nonceComplete 6 s = true) :
    exec .xccStart s = .next (respond ⟨false, 0⟩ (startStream (subkey s) (splitNonce s) s)) := by
  simp only [exec, execXccStart, withKeyAndNonce, hk, hn, Bool.not_true, Bool.false_eq_true, if_false,
    accept_eq_respond]

/-! The four commands that need a key and a nonce, with their checks: `withKeyAndNonce_cases` says how they end. -/

theorem exec_cc20Block_checked (s : State) : exec .cc20Block s =
    withKeyAndNonce 3 (fun s => setOut (cc20Block s.key s.ictr (nonce12 s)) s) s := rfl

theorem exec_hcc20_checked (s : State) : exec .hcc20 s =
    withKeyAndNonce 4 (fun s => setOut (padSubkey (hchacha20 s.key (nonce16 s))) s) s := rfl

theorem exec_ctrStart_checked (s : State) : exec .ctrStart s =
    withKeyAndNonce 3 (fun s => startStream s.key (nonce12 s) s) s := rfl

theorem exec_xccStart_checked (s : State) : exec .xccStart s =
    withKeyAndNonce 6 (fun s => startStream (subkey s) (splitNonce s) s) s := rfl

theorem exec_blkXor_idle {s : State} (h : s.phase = .idle) : exec .blkXor s = .next (reject .phase s) := by
  simp only [exec, execBlkXor, h]

/-- `BLK_XOR` in a live stream (R133, R135), as one record: the stream ends iff at most 64 bytes were left. -/
theorem exec_blkXor_stream {s : State} (h : s.phase = .stream) :
    exec .blkXor s = .next (
      let t : State := { s with
        dout := xorBlock s.din (cc20Block s.akey s.ctr s.anonce) (min 64 s.rem.toNat)
        ctr := s.ctr + 1
        rem := s.rem - BitVec.ofNat 32 (min 64 s.rem.toNat)
        rsp := some ⟨false, 0⟩ }
      if s.rem.toNat ≤ 64 then { t with phase := .idle, akey := Vector.replicate 8 0, anonce := Vector.replicate 3 0 }
      else t) := by
  have hr := rem_after_block_eq_zero_iff s
  simp only [exec, execBlkXor, h, accept_eq_respond, endIfDone, advanceStream, setDout, setPosition, endContext,
    setContext, respond, streamKeystream, blockBytes, add32] at hr ⊢
  by_cases hle : s.rem.toNat ≤ 64
  · simp only [hr.mpr hle, hle, if_true]
  · simp only [mt hr.mp hle, hle, if_false]

/-- Everything a command can do: a rejection (R181) with a code the unit raises (R182), or its own effect with the response `OK`. -/
theorem exec_cases {i : Instr} {s t : State} (h : exec i s = .next t) :
    (∃ e, (e ≠ .malformed ∧ e ≠ .random) ∧ t = reject e s) ∨
    (i = .nop ∧ t = respond ⟨false, 0⟩ s) ∨
    (i = .clrerr ∧ t = respond ⟨false, 0⟩ (setErrcode 0 s)) ∨
    (i = .clear ∧ t = respond ⟨false, 0⟩ (clearAll s)) ∨
    (((∃ a b c d, i = .qr a b c d) ∨ i = .dround ∨ i = .permute) ∧ ∃ v, t = respond ⟨false, 0⟩ (setX v s)) ∨
    ((i = .cc20Block ∨ i = .hcc20) ∧ ∃ v, t = respond ⟨false, 0⟩ (setOut v s)) ∨
    ((i = .ctrStart ∨ i = .xccStart) ∧ keyComplete s = true ∧ (nonceComplete 3 s = true ∨ nonceComplete 6 s = true) ∧
      ∃ k n, t = respond ⟨false, 0⟩ (startStream k n s)) ∨
    (i = .blkXor ∧ s.phase = .stream ∧ exec .blkXor s = .next t) := by
  cases i with
  | nop => rw [exec_nop] at h; cases h; exact .inr (.inl ⟨rfl, rfl⟩)
  | clrerr => rw [exec_clrerr] at h; cases h; exact .inr (.inr (.inl ⟨rfl, rfl⟩))
  | clear => rw [exec_clear] at h; cases h; exact .inr (.inr (.inr (.inl ⟨rfl, rfl⟩)))
  | qr a b c d =>
    cases hd : pairwiseDistinct a b c d with
    | false => rw [exec_qr_aliased hd] at h; cases h; exact .inl ⟨_, by decide, rfl⟩
    | true =>
      rw [exec_qr hd] at h; cases h
      exact .inr (.inr (.inr (.inr (.inl ⟨.inl ⟨a, b, c, d, rfl⟩, _, rfl⟩))))
  | dround =>
    rw [exec_dround] at h; cases h
    exact .inr (.inr (.inr (.inr (.inl ⟨.inr (.inl rfl), _, rfl⟩))))
  | permute =>
    rw [exec_permute] at h; cases h
    exact .inr (.inr (.inr (.inr (.inl ⟨.inr (.inr rfl), _, rfl⟩))))
  | cc20Block =>
    rw [exec_cc20Block_checked] at h
    obtain ⟨-, e⟩ | ⟨-, -, e⟩ | ⟨-, -, e⟩ := withKeyAndNonce_cases 3 _ s <;> rw [e] at h <;> cases h
    · exact .inl ⟨_, by decide, rfl⟩
    · exact .inl ⟨_, by decide, rfl⟩
    · exact .inr (.inr (.inr (.inr (.inr (.inl ⟨.inl rfl, _, rfl⟩)))))
  | hcc20 =>
    rw [exec_hcc20_checked] at h
    obtain ⟨-, e⟩ | ⟨-, -, e⟩ | ⟨-, -, e⟩ := withKeyAndNonce_cases 4 _ s <;> rw [e] at h <;> cases h
    · exact .inl ⟨_, by decide, rfl⟩
    · exact .inl ⟨_, by decide, rfl⟩
    · exact .inr (.inr (.inr (.inr (.inr (.inl ⟨.inr rfl, _, rfl⟩)))))
  | ctrStart =>
    rw [exec_ctrStart_checked] at h
    obtain ⟨-, e⟩ | ⟨-, -, e⟩ | ⟨hk, hn, e⟩ := withKeyAndNonce_cases 3 _ s <;> rw [e] at h <;> cases h
    · exact .inl ⟨_, by decide, rfl⟩
    · exact .inl ⟨_, by decide, rfl⟩
    · exact .inr (.inr (.inr (.inr (.inr (.inr (.inl ⟨.inl rfl, hk, .inl hn, _, _, rfl⟩))))))
  | xccStart =>
    rw [exec_xccStart_checked] at h
    obtain ⟨-, e⟩ | ⟨-, -, e⟩ | ⟨hk, hn, e⟩ := withKeyAndNonce_cases 6 _ s <;> rw [e] at h <;> cases h
    · exact .inl ⟨_, by decide, rfl⟩
    · exact .inl ⟨_, by decide, rfl⟩
    · exact .inr (.inr (.inr (.inr (.inr (.inr (.inl ⟨.inr rfl, hk, .inr hn, _, _, rfl⟩))))))
  | blkXor =>
    cases hp : s.phase with
    | idle => rw [exec_blkXor_idle hp] at h; cases h; exact .inl ⟨_, by decide, rfl⟩
    | stream => exact .inr (.inr (.inr (.inr (.inr (.inr (.inr ⟨rfl, rfl, h⟩))))))

end Sys2Proof.Machine
end

