-- ==== Sys2Proof/Laws/PerInstr.lean ====
section
/-! SUPPORT. A statement about every command as syntax: its word selects its own row of the opcode map (R74). -/

namespace Sys2Proof.Laws.RowMatch

/-- The command's row stands in the opcode map, and the command's word matches it (R74). -/
def Statement (i : Instr) : Prop := opRow i ∈ opcodeTable ∧ selects (opRow i) (encode i) = true

theorem nop : Statement .nop := by unfold Statement; decide

theorem clrerr : Statement .clrerr := by unfold Statement; decide

theorem clear : Statement .clear := by unfold Statement; decide

/-- The bits of one index field lie outside the mask of format Q (R72). -/
theorem index_outside_mask : ∀ i : Fin 16,
    (BitVec.ofNat 32 i <<< 8) &&& 0xFF0000FF#32 = 0 ∧ (BitVec.ofNat 32 i <<< 12) &&& 0xFF0000FF#32 = 0 ∧
    (BitVec.ofNat 32 i <<< 16) &&& 0xFF0000FF#32 = 0 ∧ (BitVec.ofNat 32 i <<< 20) &&& 0xFF0000FF#32 = 0 := by
  decide

theorem mask_or (v w m : Word) : (v ||| w) &&& m = (v &&& m) ||| (w &&& m) := by
  ext i
  simp [Bool.and_or_distrib_right]

theorem qr (a b c d : Fin 16) : Statement (.qr a b c d) := by
  refine ⟨by simp [opcodeTable, opRow], ?_⟩
  have ha := (index_outside_mask a).1
  have hb := (index_outside_mask b).2.1
  have hc := (index_outside_mask c).2.2.1
  have hd := (index_outside_mask d).2.2.2
  simp only [selects, opRow, encode, encodeQ, mask_or, ha, hb, hc, hd, beq_iff_eq]
  decide

theorem dround : Statement .dround := by unfold Statement; decide

theorem permute : Statement .permute := by unfold Statement; decide

theorem cc20Block : Statement .cc20Block := by unfold Statement; decide

theorem hcc20 : Statement .hcc20 := by unfold Statement; decide

theorem ctrStart : Statement .ctrStart := by unfold Statement; decide

theorem xccStart : Statement .xccStart := by unfold Statement; decide

theorem blkXor : Statement .blkXor := by unfold Statement; decide

end Sys2Proof.Laws.RowMatch
end

