-- ==== Sys2Proof/Laws/Window.lean ====
section
/-! SUPPORT. The register window (R52 to R54): the map and the offsets are inverse, and an access reaches a register
unless R183 names it an error. Each is a finite check over the 512 offsets. -/

namespace Sys2Proof.Machine

theorem regAt_regOffset (r : Reg) : regAt (regOffset r) = some r := by
  cases r with
  | key i => revert i; decide
  | nonce i => revert i; decide
  | x i => revert i; decide
  | out i => revert i; decide
  | din i => revert i; decide
  | dout i => revert i; decide
  | _ => decide

theorem regOffset_of_regAt_fin : ∀ a : Fin (2 ^ 9), ∀ r ∈ regAt ⟨a⟩, regOffset r = ⟨a⟩ := by decide +kernel

theorem regOffset_of_regAt {a : Offset} {r : Reg} (h : regAt a = some r) : regOffset r = a :=
  regOffset_of_regAt_fin a.toFin r h

theorem readTarget_none_fin : ∀ a : Fin (2 ^ 9), readTarget ⟨a⟩ .four = none ↔ ReadAccessError ⟨a⟩ .four := by
  decide +kernel

theorem writeTarget_none_fin : ∀ a : Fin (2 ^ 9), writeTarget ⟨a⟩ .four = none ↔ WriteAccessError ⟨a⟩ .four := by
  decide +kernel

/-- A read reaches no register exactly where R183 says `E_ACCESS`. -/
theorem readTarget_eq_none_iff (a : Offset) (n : AccessSize) : readTarget a n = none ↔ ReadAccessError a n := by
  cases n with
  | four => exact readTarget_none_fin a.toFin
  | _ => simp [readTarget, aligned32, ReadAccessError]

/-- A write reaches no register exactly where R183 says `E_ACCESS`. -/
theorem writeTarget_eq_none_iff (a : Offset) (n : AccessSize) : writeTarget a n = none ↔ WriteAccessError a n := by
  cases n with
  | four => exact writeTarget_none_fin a.toFin
  | _ => simp [writeTarget, aligned32, WriteAccessError]

/-- Where a write reaches a register, it is a writable one and stands at that offset. -/
theorem writeTarget_some {a : Offset} {n : AccessSize} {r : Reg} (h : writeTarget a n = some r) :
    n = .four ∧ a = regOffset r ∧ accessOf r ≠ .readOnly := by
  unfold writeTarget at h
  split at h
  · next ha =>
    obtain ⟨hr, hw⟩ := Option.filter_eq_some_iff.mp h
    simp [aligned32, writable] at ha hw
    exact ⟨ha.1, (regOffset_of_regAt hr).symm, hw⟩
  · cases h

/-- Where a read reaches a register, it is a readable one and stands at that offset. -/
theorem readTarget_some {a : Offset} {n : AccessSize} {r : Reg} (h : readTarget a n = some r) :
    n = .four ∧ a = regOffset r ∧ accessOf r ≠ .writeOnly := by
  unfold readTarget at h
  split at h
  · next ha =>
    obtain ⟨hr, hw⟩ := Option.filter_eq_some_iff.mp h
    simp [aligned32, readable] at ha hw
    exact ⟨ha.1, (regOffset_of_regAt hr).symm, hw⟩
  · cases h

theorem aligned32_regOffset (r : Reg) : aligned32 (regOffset r) .four = true := by
  cases r with
  | key i => revert i; decide
  | nonce i => revert i; decide
  | x i => revert i; decide
  | out i => revert i; decide
  | din i => revert i; decide
  | dout i => revert i; decide
  | _ => decide

theorem readTarget_regOffset {r : Reg} (h : accessOf r ≠ .writeOnly) : readTarget (regOffset r) .four = some r := by
  simp [readTarget, aligned32_regOffset, regAt_regOffset, readable, h]

theorem writeTarget_regOffset {r : Reg} (h : accessOf r ≠ .readOnly) : writeTarget (regOffset r) .four = some r := by
  simp [writeTarget, aligned32_regOffset, regAt_regOffset, writable, h]

end Sys2Proof.Machine
end

