-- ==== Sys2Proof/Laws/Step.lean ====
section
/-! SUPPORT. What a transaction and a step can do, said once: the cases of a read, of a write, and of the serving of a
host input (R51 to R53, R200, R204). -/

namespace Sys2Proof.Machine

theorem transact_read (a : Offset) (n : AccessSize) (s : State) : transact (.read a n) s = memRead a n s := rfl

theorem transact_write (a : Offset) (n : AccessSize) (v : Word) (s : State) :
    transact (.write a n v) s = memWrite a n v s := rfl

theorem memRead_rejected {a : Offset} {n : AccessSize} (h : readTarget a n = none) (s : State) :
    memRead a n s = .next (reject .access s) := by simp [memRead, h]

theorem memRead_reg {a : Offset} {n : AccessSize} {r : Reg} (h : readTarget a n = some r) (s : State) :
    memRead a n s = .next (respond ⟨false, readReg r s⟩ s) := by simp [memRead, h]

theorem memWrite_rejected {a : Offset} {n : AccessSize} (h : writeTarget a n = none) (v : Word) (s : State) :
    memWrite a n v s = .next (reject .access s) := by simp [memWrite, h]

theorem memWrite_cmd {a : Offset} {n : AccessSize} (h : writeTarget a n = some .cmd) (v : Word) (s : State) :
    memWrite a n v s = runCommand v s := by simp [memWrite, h]

theorem memWrite_reg {a : Offset} {n : AccessSize} {r : Reg} (h : writeTarget a n = some r) (hr : r ≠ .cmd)
    (v : Word) (s : State) : memWrite a n v s = .next (respond ⟨false, 0⟩ (writeReg r v s)) := by
  cases r <;> simp_all [memWrite]

theorem runCommand_illegal {w : Word} {e : DecodeError} (h : decode w = .error e) (s : State) :
    runCommand w s = .next (reject .illCmd s) := by simp [runCommand, h]

theorem runCommand_legal {w : Word} {i : Instr} (h : decode w = .ok i) (s : State) :
    runCommand w s = exec i s := by simp [runCommand, h]

/-- Everything a transaction can do: a read of a register, a store, a command, or a rejection of an access or of a
word that is no command. -/
theorem transact_cases (tr : Transaction) (s : State) :
    (∃ r, tr = .read (regOffset r) .four ∧ transact tr s = .next (respond ⟨false, readReg r s⟩ s)) ∨
    (∃ r v, tr = .write (regOffset r) .four v ∧ r ≠ .cmd ∧ accessOf r ≠ .readOnly ∧
      transact tr s = .next (respond ⟨false, 0⟩ (writeReg r v s))) ∨
    (∃ i w, tr = .write 0x008 .four w ∧ decode w = .ok i ∧ transact tr s = exec i s) ∨
    (∃ e, (e = .access ∨ e = .illCmd) ∧ transact tr s = .next (reject e s)) := by
  cases tr with
  | read a n =>
    cases h : readTarget a n with
    | none => exact .inr (.inr (.inr ⟨.access, .inl rfl, memRead_rejected h s⟩))
    | some r =>
      obtain ⟨rfl, rfl, -⟩ := readTarget_some h
      exact .inl ⟨r, rfl, memRead_reg h s⟩
  | write a n v =>
    cases h : writeTarget a n with
    | none => exact .inr (.inr (.inr ⟨.access, .inl rfl, memWrite_rejected h v s⟩))
    | some r =>
      obtain ⟨rfl, rfl, ha⟩ := writeTarget_some h
      by_cases hr : r = .cmd
      · subst hr
        cases hd : decode v with
        | error e =>
          exact .inr (.inr (.inr ⟨.illCmd, .inr rfl, (memWrite_cmd h v s).trans (runCommand_illegal hd s)⟩))
        | ok i => exact .inr (.inr (.inl ⟨i, v, rfl, hd, (memWrite_cmd h v s).trans (runCommand_legal hd s)⟩))
      · exact .inr (.inl ⟨r, v, rfl, hr, ha, memWrite_reg h hr v s⟩)

/-- Every transaction answers a next state (R51). -/
theorem transact_answers (tr : Transaction) (s : State) : ∃ t, transact tr s = .next t := by
  obtain ⟨r, -, h⟩ | ⟨r, v, -, -, -, h⟩ | ⟨i, w, -, -, h⟩ | ⟨e, -, h⟩ := transact_cases tr s
  · exact ⟨_, h⟩
  · exact ⟨_, h⟩
  · rw [h]; exact exec_answers i s
  · exact ⟨_, h⟩

theorem step_no_input {s : State} (h : s.inputs = []) : step s = .next s := by simp [step, serveNext, h]

theorem step_reset {s : State} {rest : List HostInput} (h : s.inputs = .reset :: rest) :
    step s = .next (resetUnit rest) := by simp [step, serveNext, h]

theorem step_request {s : State} {tr : Transaction} {rest : List HostInput} (h : s.inputs = .request tr :: rest) :
    step s = transact tr (setInputs rest s) := by simp [step, serveNext, h]

/-- Everything a step can do. -/
theorem step_cases (s : State) :
    (s.inputs = [] ∧ step s = .next s) ∨
    (∃ rest, s.inputs = .reset :: rest ∧ step s = .next (resetUnit rest)) ∨
    (∃ tr rest, s.inputs = .request tr :: rest ∧ step s = transact tr (setInputs rest s)) := by
  match h : s.inputs with
  | [] => exact .inl ⟨rfl, step_no_input h⟩
  | .reset :: rest => exact .inr (.inl ⟨rest, rfl, step_reset h⟩)
  | .request tr :: rest => exact .inr (.inr ⟨tr, rest, rfl, step_request h⟩)

end Sys2Proof.Machine
end

