-- ==== Sys2Proof/Tests/Slice0.lean ====
section
/-! SUPPORT. The model's own tests: legal and ill-formed commands, words written out from the encoding rules, one step
per command on the vectors of spec/95_test_vectors.md, and, for every statement with hypotheses, a state and operands
that meet them all together. Expected values are the spec's; none is the model's own answer. -/

open Sys2Proof Sys2Proof.Machine

namespace Sys2Proof.Tests

/-! ### Helpers -/

/-- A result is a next state that has a property. -/
def gives (r : Result) (p : State → Bool) : Bool := match r with
  | .next t => p t
  | .fault _ => false
  | .refused _ => false

theorem exists_next {r : Result} {p : State → Prop} [DecidablePred p] (h : gives r (fun t => decide (p t)) = true) :
    ∃ t, r = .next t ∧ p t := by
  cases r with
  | next t => exact ⟨t, rfl, by simpa [gives] using h⟩
  | fault f => cases f
  | refused f => simp [gives] at h

/-- The next state, `s` itself where there is none. -/
def after (r : Result) (s : State) : State := match r with
  | .next t => t
  | .fault _ => s
  | .refused _ => s

/-- The key words of V4, V7 and P2 to P4. -/
def keyWords : Vector Word 8 :=
  #v[0x03020100, 0x07060504, 0x0B0A0908, 0x0F0E0D0C, 0x13121110, 0x17161514, 0x1B1A1918, 0x1F1E1D1C]

/-- A unit with that key, and six valid nonce words. -/
def loaded (nonce : Vector Word 6) : State :=
  { State.reset with key := keyWords, keyv := 0xFF, nonce := nonce, noncev := 0x3F }

/-- The nonce of P3. -/
def nonce24 : Vector Word 6 := #v[0x43424140, 0x47464544, 0x4B4A4948, 0x4F4E4D4C, 0x53525150, 0x57565554]

/-- A unit with a live stream of `rem` bytes at counter `ctr`: the key of V5 and its nonce. -/
def live (ctr rem : Word) : State :=
  { State.reset with phase := .stream, akey := keyWords, anonce := #v[0, 0x4A000000, 0], ctr := ctr, rem := rem }

/-- A unit with the working state `v`. -/
def withX (v : Vector Word 16) : State := setX v State.reset

/-- `X[i] = i`. -/
def ramp : Vector Word 16 := #v[0, 1, 2, 3, 4, 5, 6, 7, 8, 9, 10, 11, 12, 13, 14, 15]

/-- `X = (1, 0, .., 0)`. -/
def unitX : Vector Word 16 := #v[1, 0, 0, 0, 0, 0, 0, 0, 0, 0, 0, 0, 0, 0, 0, 0]

/-- The command word `w` presented next. -/
def presenting (w : Word) (s : State) : State := presentFirst (commandWrite w) s

/-! ### WellFormed: each of the six pairs of QR indices (R75) -/

theorem test_wf_legal : (Instr.qr 2 7 8 13).wellFormed = true := by decide
theorem test_wf_ab : (Instr.qr 5 5 8 13).wellFormed = false := by decide
theorem test_wf_ac : (Instr.qr 2 7 2 13).wellFormed = false := by decide
theorem test_wf_ad : (Instr.qr 2 7 8 2).wellFormed = false := by decide
theorem test_wf_bc : (Instr.qr 2 7 7 13).wellFormed = false := by decide
theorem test_wf_bd : (Instr.qr 2 7 8 7).wellFormed = false := by decide
theorem test_wf_cd : (Instr.qr 2 7 8 8).wellFormed = false := by decide

/-! ### Decode: words written out bit by bit from R71 to R74 -/

theorem test_decode_nop : decode 0b000000000000000000000000_00000000#32 = .ok .nop := by decide
theorem test_decode_clrerr : decode 0b000000000000000000000000_00000001#32 = .ok .clrerr := by decide
theorem test_decode_clear : decode 0b000000000000000000000000_00000010#32 = .ok .clear := by decide
/-- `QR 1,6,11,12`: reserved, d = 1100, c = 1011, b = 0110, a = 0001, `OPC` (R72; V9 gives `0x00CB6110`). -/
theorem test_decode_qr : decode 0b00000000_1100_1011_0110_0001_00010000#32 = .ok (.qr 1 6 11 12) ∧
    0b00000000_1100_1011_0110_0001_00010000#32 = 0x00CB6110#32 := by decide
theorem test_decode_dround : decode 0b000000000000000000000000_00010001#32 = .ok .dround := by decide
theorem test_decode_permute : decode 0b000000000000000000000000_00010010#32 = .ok .permute := by decide
theorem test_decode_cc20Block : decode 0b000000000000000000000000_00100000#32 = .ok .cc20Block := by decide
theorem test_decode_hcc20 : decode 0b000000000000000000000000_00100001#32 = .ok .hcc20 := by decide
theorem test_decode_ctrStart : decode 0b000000000000000000000000_00110000#32 = .ok .ctrStart := by decide
theorem test_decode_xccStart : decode 0b000000000000000000000000_00110001#32 = .ok .xccStart := by decide
theorem test_decode_blkXor : decode 0b000000000000000000000000_00110010#32 = .ok .blkXor := by decide

/-- Illegal words (R75): an unknown opcode, a reserved bit of each format, repeated indices. -/
theorem test_decode_illegal : decode 0xFFFFFFFF = .error .unknownOpcode ∧
    decode 0x80000032 = .error .reservedBits ∧ decode 0x00000100 = .error .reservedBits ∧
    decode 0x80D87210 = .error .reservedBits ∧ decode 0x00D77210 = .error .indicesNotDistinct := by decide

/-- The encoding vectors of V9. -/
theorem test_encode_qr : encode (.qr 0 4 8 12) = 0x00C84010 ∧ encode (.qr 12 8 4 0) = 0x00048C10 ∧
    encode (.qr 15 14 13 12) = 0x00CDEF10 := by decide

/-- The table's words run as the first command after reset. -/
theorem test_tableWord : decodeTableWord 32 0x32 = some .blkXor ∧ decodeTableWord 32 0x00D87210 = some (.qr 2 7 8 13) ∧
    decodeTableWord 32 0x10 = none := by decide

/-! ### One step per command -/

/-- R170: a write of 0 to `CMD` leaves an `ERRCODE` of 6. -/
theorem test_nop : gives (step (presenting 0x00 { State.reset with errcode := 6 })) (fun t => t.errcode == 6 &&
    t.rsp == some ⟨false, 0⟩) = true := by decide

/-- R171's example: `STATUS` `0x003F7F10` becomes `0x003F7F00`. -/
theorem test_clrerr : statusView { State.reset with errcode := 1, keyv := 0x7F, noncev := 0x3F } = 0x003F7F10 ∧
    gives (step (presenting 0x01 { State.reset with errcode := 1, keyv := 0x7F, noncev := 0x3F }))
      (fun t => statusView t == 0x003F7F00) = true := by decide

/-- R172: after any history, `CLEAR` gives `STATUS` 0 and a wiped key. -/
theorem test_clear : gives (step (presenting 0x02 { live 7 70 with key := keyWords, keyv := 0xFF, errcode := 6 }))
    (fun t => statusView t == 0 && t.key == Vector.replicate 8 0 && t.rem == 0) = true := by decide

/-- V1: the quarter-round on four words. -/
theorem test_qr_words : qr 0x11111111 0x01020304 0x9B8D6F43 0x01234567 =
    ⟨0xEA2A92F4, 0xCB1CF8CE, 0x4581472E, 0x5881C4BB⟩ := by decide

/-- V9: the order of the indices matters. -/
theorem test_qr : gives (step (presenting 0x00048C10 (withX ramp))) (fun t =>
    t.x == #v[0x14C01540, 1, 2, 3, 0x14D41544, 5, 6, 7, 0x6A6AA2AA, 9, 10, 11, 0x4000C015, 13, 14, 15]) = true := by
  decide +kernel

/-- V6: one `DROUND` from `(1, 0, .., 0)`. -/
theorem test_dround : gives (step (presenting 0x11 (withX unitX))) (fun t =>
    t.x == #v[0x21000001, 0x00100011, 0x10110010, 0x01090890, 0x8C08C084, 0x08889088, 0x80890800, 0x08089801,
      0x12011120, 0x89909109, 0x01111121, 0x01111201, 0x00011101, 0x11001010, 0x01881089, 0x01100121]) = true := by
  decide +kernel

/-- V6: one `PERMUTE` from `(1, 0, .., 0)`. -/
theorem test_permute : gives (step (presenting 0x12 (withX unitX))) (fun t =>
    t.x == #v[0x977E6214, 0x972D0571, 0xCC25A0A8, 0x2F573155, 0xEACA531E, 0x9CEA6C47, 0xF7C71127, 0xA78A95BD,
      0x476C953D, 0xEC1080E9, 0x82ADD1CE, 0x9C5B18A8, 0x17F3603F, 0x6931991B, 0x06B6B5F3, 0x6908AF85]) = true := by
  decide +kernel

/-- V4: the block function, with counter 1. -/
theorem test_cc20Block : gives (step (presenting 0x20 { loaded #v[0x09000000, 0x4A000000, 0, 0, 0, 0] with ictr := 1 }))
    (fun t => t.out == #v[0xE4E7F110, 0x15593BD1, 0x1FDD0F50, 0xC47120A3, 0xC7F4D1C7, 0x0368C033, 0x9AAA2204,
      0x4E6CD4C3, 0x466482D2, 0x09AA9F07, 0x05D7C214, 0xA2028BD9, 0xD19C12B5, 0xB94E16DE, 0xE883D0CB,
      0x4E3C50A2]) = true := by
  decide +kernel

/-- V7: the subkey, then zeros. -/
theorem test_hcc20 : gives (step (presenting 0x21 (loaded #v[0x09000000, 0x4A000000, 0, 0x27594131, 0, 0])))
    (fun t => t.out == #v[0x423B4182, 0xFE7BB227, 0x50420ED3, 0x737D878A, 0xD5E4F9A0, 0x53A8748A, 0x13C42EC1,
      0xDCECD326, 0, 0, 0, 0, 0, 0, 0, 0]) = true := by
  decide +kernel

/-- V5: `CTR_START` of 114 bytes gives `STATUS` `0x0007FF01`, `CTR` 1, `REM` 114; three nonce words are enough. -/
theorem test_ctrStart : gives (step (presenting 0x30
    { loaded #v[0, 0x4A000000, 0, 0, 0, 0] with noncev := 0b000111, ictr := 1, len := 114 }))
    (fun t => statusView t == 0x0007FF01 && t.ctr == 1 && t.rem == 114) = true := by decide +kernel

/-- P5: an empty stream succeeds and stays idle. -/
theorem test_ctrStart_empty : gives (step (presenting 0x30
    { loaded #v[0, 0, 0, 0, 0, 0] with noncev := 0b000111, ictr := 0xFFFFFFFF }))
    (fun t => statusView t == 0x0007FF00 && t.ctr == 0xFFFFFFFF && t.rsp == some ⟨false, 0⟩) = true := by decide +kernel

/-- P3: the hidden key and nonce of the stream. -/
theorem test_xccStart : gives (step (presenting 0x31 { loaded nonce24 with len := 70 }))
    (fun t => statusView t == 0x003FFF01 && t.rem == 70 && t.anonce == #v[0, 0x53525150, 0x57565554] &&
      t.akey == #v[0xF1381B00, 0x044A65BC, 0x2017F070, 0xCC3E1049, 0xB18B7DB6, 0xA4D2116B, 0xA266DB68,
        0x7DD453DD]) = true := by
  decide +kernel

/-- P4: with `KEY[7]` never written, `E_KEYLEN`. -/
theorem test_xccStart_keyLen : gives (step (presenting 0x31 { loaded nonce24 with keyv := 0x7F, len := 1 }))
    (fun t => statusView t == 0x003F7F10 && t.rsp == some ⟨true, 0⟩) = true := by decide +kernel

/-- V5, block 1: 50 bytes; the stale words of `DIN` do not reach `DOUT`, and the stream ends. -/
theorem test_blkXor : gives (step (presenting 0x32 { live 2 50 with din :=
    #v[0x20796C6E, 0x20656E6F, 0x20706974, 0x20726F66, 0x20656874, 0x75747566, 0x202C6572, 0x736E7573,
      0x65657263, 0x6F77206E, 0x20646C75, 0x69206562, 0x00002E74, 0x66666F20, 0x79207265, 0x6F20756F] }))
    (fun t => t.dout == #v[0xBF0DCA07, 0x616A0D50, 0x088EA356, 0x5EB6228A, 0x4D51BC52, 0x06F8CC16, 0x1AE98C81,
      0x363779B7, 0xBF0BF95A, 0xE65BA374, 0xED8E0BB4, 0x425E78F2, 0x00004D87, 0, 0, 0] && t.ctr == 3 && t.rem == 0 &&
      t.phase == .idle) = true := by
  decide +kernel

/-- P5: the counter wraps from `0xFFFFFFFF` to 0 with no error, and one byte is left. -/
theorem test_blkXor_wraps : gives (step (presenting 0x32 (live 0xFFFFFFFF 0x41)))
    (fun t => t.ctr == 0 && t.rem == 1 && t.phase == .stream && t.errcode == 0) = true := by decide +kernel

/-- P4: sticky first: with code 1 recorded, `BLK_XOR` while idle answers `ERR` and leaves 1. -/
theorem test_reject_sticky : gives (step (presenting 0x32 { State.reset with errcode := 1 }))
    (fun t => t.errcode == 1 && t.rsp == some ⟨true, 0⟩) = true := by decide

/-- R6, D25: a platform that gives no `NUM_INSTANCES` has one unit. -/
theorem test_platform_default : platformReset = [State.reset] := rfl

/-- R183, R54: a write past `NONCE[5]` is `E_ACCESS`; the offset after `KEY[7]` is `NONCE[0]` in R54's table. -/
theorem test_write_past_files : gives (transact (.write 0x058 .four 1) State.reset) (fun t => t.errcode == 7) = true ∧
    gives (transact (.write 0x040 .four 1) State.reset) (fun t => t.noncev == 1 && t.errcode == 0) = true := by decide

/-- R161: 12 bytes are the nonce of `CTR_START` and `CC20_BLOCK`, and of no other command; a ninth key word fails. -/
theorem test_loadScript : (loadScript .ctrStart (List.replicate 32 0) (List.replicate 12 0)).isOk = true ∧
    (loadScript .cc20Block (List.replicate 32 0) (List.replicate 12 0)).isOk = true ∧
    loadScript .hcc20 (List.replicate 32 0) (List.replicate 12 0) = .error .invalidNonceLength ∧
    loadScript .xccStart (List.replicate 32 0) (List.replicate 12 0) = .error .invalidNonceLength ∧
    loadScript .xccStart (List.replicate 36 0) (List.replicate 24 0) = .error .invalidKeyLength := by decide

/-! ### Witnesses: for each statement with hypotheses, values that meet them together -/

theorem test_witness_DecodeOfEncode : (Instr.qr 15 0 14 1).wellFormed = true := by decide

theorem test_witness_EncodeOfDecode : decode 0x00FA5010 = .ok (.qr 0 5 10 15) := by decide

/-- Both sides hold of a legal `QR` word; a row matches and the indices repeat in the second; no row in the third. -/
theorem test_witness_WordDecodesIffTableRow :
    (decode 0x00D87210 = .ok (.qr 2 7 8 13) ∧ selects (opRow (.qr 0 1 2 3)) 0x00D87210 = true) ∧
    (decode 0x00D77210 = .error .indicesNotDistinct ∧ selects (opRow (.qr 0 1 2 3)) 0x00D77210 = true) ∧
    (∀ r ∈ opcodeTable, selects r 0x00000003 = false) := by decide

theorem test_witness_OpcodeRowsDisjoint : opRow .blkXor ∈ opcodeTable ∧
    0x00000032#32 &&& (opRow .blkXor).mask = (opRow .blkXor).pattern := by decide

theorem test_witness_StepServesFirstRequest :
    ({ State.reset with inputs := [.request (.read 0x1FF .other), .reset] } : State).inputs =
      .request (.read 0x1FF .other) :: [.reset] := rfl

theorem test_witness_StepRunsDecodedCommand : decode 0x00000032 = .ok .blkXor ∧
    (presenting 0x00000032 (live 1 114)).inputs = .request (.write 0x008 .four 0x00000032) :: [] := by decide

theorem test_witness_IllegalWordRejected : decode 0x00D77210 = .error .indicesNotDistinct ∧
    decode 0x00000111 = .error .reservedBits ∧ decode 0x00000013 = .error .unknownOpcode := by decide

/-- The error clause of the read rule: at both ends of each range, and each size that is not 4. -/
theorem test_witness_ReadTransactionRule_error :
    (∀ a ∈ [0x008#9, 0x01C, 0x020, 0x03C, 0x058, 0x07C, 0x180, 0x1FC, 0x001, 0x1FF], ReadAccessError a .four) ∧
    (∀ n ∈ [AccessSize.one, .two, .other], ReadAccessError 0x000 n) := by
  simp [ReadAccessError, UnmappedOffset, WriteOnlyOffset]

/-- The register clauses, at both ends of each range: none is an error. -/
theorem test_witness_ReadTransactionRule :
    (∀ a ∈ [0x000#9, 0x004, 0x00C, 0x010, 0x014, 0x018, 0x040, 0x054, 0x080, 0x0BC, 0x0C0, 0x0FC, 0x100, 0x13C,
      0x140, 0x17C], ¬ ReadAccessError a .four) ∧
    ((0x040#9).toNat = 0x040 + 4 * (0 : Fin 6).val ∧ (0x054#9).toNat = 0x040 + 4 * (5 : Fin 6).val) ∧
    ((0x080#9).toNat = 0x080 + 4 * (0 : Fin 16).val ∧ (0x0BC#9).toNat = 0x080 + 4 * (15 : Fin 16).val) ∧
    ((0x0C0#9).toNat = 0x0C0 + 4 * (0 : Fin 16).val ∧ (0x0FC#9).toNat = 0x0C0 + 4 * (15 : Fin 16).val) ∧
    ((0x100#9).toNat = 0x100 + 4 * (0 : Fin 16).val ∧ (0x13C#9).toNat = 0x100 + 4 * (15 : Fin 16).val) ∧
    ((0x140#9).toNat = 0x140 + 4 * (0 : Fin 16).val ∧ (0x17C#9).toNat = 0x140 + 4 * (15 : Fin 16).val) := by
  simp [ReadAccessError, UnmappedOffset, WriteOnlyOffset]

/-- The error clause of the write rule: at both ends of each range, and each size that is not 4. -/
theorem test_witness_WriteTransactionRule_error :
    (∀ a ∈ [0x000#9, 0x004, 0x014, 0x018, 0x01C, 0x058, 0x07C, 0x0C0, 0x0FC, 0x140, 0x17C, 0x180, 0x1FC, 0x00A],
      WriteAccessError a .four) ∧
    (∀ n ∈ [AccessSize.one, .two, .other], WriteAccessError 0x080 n) := by
  simp [WriteAccessError, UnmappedOffset, ReadOnlyOffset]

/-- The register clauses, at both ends of each range: none is an error. -/
theorem test_witness_WriteTransactionRule :
    (∀ a ∈ [0x008#9, 0x00C, 0x010, 0x020, 0x03C, 0x040, 0x054, 0x080, 0x0BC, 0x100, 0x13C],
      ¬ WriteAccessError a .four) ∧
    ((0x020#9).toNat = 0x020 + 4 * (0 : Fin 8).val ∧ (0x03C#9).toNat = 0x020 + 4 * (7 : Fin 8).val) ∧
    ((0x040#9).toNat = 0x040 + 4 * (0 : Fin 6).val ∧ (0x054#9).toNat = 0x040 + 4 * (5 : Fin 6).val) ∧
    ((0x080#9).toNat = 0x080 + 4 * (0 : Fin 16).val ∧ (0x0BC#9).toNat = 0x080 + 4 * (15 : Fin 16).val) ∧
    ((0x100#9).toNat = 0x100 + 4 * (0 : Fin 16).val ∧ (0x13C#9).toNat = 0x100 + 4 * (15 : Fin 16).val) := by
  simp [WriteAccessError, UnmappedOffset, ReadOnlyOffset]

theorem test_witness_WindowMapInverse : regAt 0x17C = some (.dout 15) ∧ regAt 0x000 = some .id ∧
    regAt 0x03C = some (.key 7) := by decide

theorem test_witness_IdleUnitUnchanged : (live 1 114).inputs = [] := rfl

theorem test_witness_PortSizeNotFourRejected : (3#2 ≠ 2) ∧ (0#2 ≠ 2) := by decide

theorem test_witness_ResetInputLeavesResetState : (setInputs [.reset] (live 1 114)).inputs = .reset :: [] := rfl

theorem test_witness_CommandsOnResetState : [(0 : Fin 16), 15, 1, 14].Nodup ∧
    (accessOf .status ≠ .writeOnly ∧ Reg.status ≠ .id) := by decide

theorem test_witness_QuarterRoundInPlace : [(2 : Fin 16), 7, 8, 13].Nodup ∧
    [(0 : Fin 16), 4, 8, 12, 1, 5, 9, 13].Nodup := by decide

theorem test_witness_QrResult : [(15 : Fin 16), 14, 13, 0].Nodup := by decide

theorem test_witness_QrAliasedRejected : ¬ [(2 : Fin 16), 7, 7, 13].Nodup := by decide

/-- The groups in another order (V6's eight commands with two columns and two diagonals exchanged). -/
theorem test_witness_DoubleRoundOrderFree :
    [((1 : Fin 16), (5 : Fin 16), (9 : Fin 16), (13 : Fin 16)), (0, 4, 8, 12), (2, 6, 10, 14), (3, 7, 11, 15)].Perm
      columnGroups ∧
    [((1 : Fin 16), (6 : Fin 16), (11 : Fin 16), (12 : Fin 16)), (0, 5, 10, 15), (2, 7, 8, 13), (3, 4, 9, 14)].Perm
      diagonalGroups := by decide

theorem test_witness_Cc20BlockResult :
    ({ loaded nonce24 with noncev := 0b000111 } : State).keyv = 0xFF ∧
    ({ loaded nonce24 with noncev := 0b000111 } : State).noncev.extractLsb' 0 3 = 0b111#3 := by decide +kernel

theorem test_witness_Hcc20Result :
    ({ loaded nonce24 with noncev := 0b001111 } : State).keyv = 0xFF ∧
    ({ loaded nonce24 with noncev := 0b001111 } : State).noncev.extractLsb' 0 4 = 0b1111#4 := by decide +kernel

/-- Both cases of the length. -/
theorem test_witness_CtrStartResult : ∀ len ∈ [0#32, 0xFFFFFFFF],
    ({ loaded nonce24 with noncev := 0b000111, len := len } : State).keyv = 0xFF ∧
    ({ loaded nonce24 with noncev := 0b000111, len := len } : State).noncev.extractLsb' 0 3 = 0b111#3 :=
  fun _ _ => ⟨rfl, rfl⟩

theorem test_witness_XccStartResult : ∀ len ∈ [0#32, 70],
    ({ loaded nonce24 with len := len } : State).keyv = 0xFF ∧
    ({ loaded nonce24 with len := len } : State).noncev = 0b111111 := fun _ _ => ⟨rfl, rfl⟩

/-- A last block of one byte, a last whole block, a block with one byte to follow, the longest stream. -/
theorem test_witness_BlkXorResult : (∀ r ∈ [1#32, 64, 65, 0xFFFFFFFF], (live 1 r).phase = .stream) ∧
    (live 1 64).rem.toNat ≤ 64 ∧ ¬ (live 1 65).rem.toNat ≤ 64 := ⟨fun _ _ => rfl, by decide, by decide⟩

theorem test_witness_BlkXorRejectedWhenIdle : (loaded nonce24).phase = .idle := rfl

/-- Each closed form at the ends of its range: `n` = 1 and 64, `j` = 0 and 15, a partial word of 1 and 3 bytes. -/
theorem test_witness_BytemaskForms : (1 ≤ 1 ∧ 1 ≤ 64 ∧ 64 ≤ 64 ∧ 0 < 16 ∧ 15 < 16) ∧
    (4 * 15 + 4 ≤ 64 ∧ bytemask 64 15 = 0xFFFFFFFF) ∧ (4 * 0 < 1 ∧ 1 < 4 * 0 + 4 ∧ bytemask 1 0 = 0x000000FF) ∧
    (4 * 15 < 63 ∧ 63 < 4 * 15 + 4 ∧ bytemask 63 15 = 0x00FFFFFF) ∧ (60 ≤ 4 * 15 ∧ bytemask 60 15 = 0) ∧
    bytemask 50 12 = 0x0000FFFF := by decide

theorem test_witness_TwoStepPathStartsSameStream : ({ loaded nonce24 with len := 70 } : State).keyv = 0xFF ∧
    ({ loaded nonce24 with len := 70 } : State).noncev = 0b111111 := by decide

/-- A missing key word; then, the key complete, the last nonce word each command uses missing. -/
theorem test_witness_KeyThenNonceChecked : ({ loaded nonce24 with keyv := 0x7F } : State).keyv ≠ 0xFF ∧
    (∀ p ∈ [(Instr.cc20Block, 3), (.hcc20, 4), (.ctrStart, 3), (.xccStart, 6)],
      ∃ v ∈ [0b000011#6, 0b000111, 0b011111], (loaded nonce24).keyv = 0xFF ∧ ∃ j < p.2,
        ({ loaded nonce24 with noncev := v } : State).noncev.getLsbD j = false) := by decide

/-- Each place of R184's order is reached, and a transaction with no error. -/
theorem test_witness_FirstErrorReported :
    firstError (.write 0x008 .two 0xFFFFFFFF) State.reset = some .access ∧
    firstError (.write 0x008 .four 0xFFFFFFFF) State.reset = some .illCmd ∧
    firstError (cmd .blkXor) State.reset = some .phase ∧
    firstError (cmd .xccStart) State.reset = some .keyLen ∧
    firstError (cmd .xccStart) { loaded nonce24 with noncev := 0b011111 } = some .nonceLen ∧
    firstError (cmd .ctrStart) { loaded nonce24 with noncev := 0b000111 } = none := by decide

theorem test_witness_RejectionAllOrNothing : ∃ t, transact (rd (.key 0)) (live 1 114) = .next t ∧
    t.rsp = some ⟨true, 0⟩ := exists_next (by decide)

theorem test_witness_ErrcodeStaysUntilCleared :
    ({ State.reset with errcode := 6 } : State).errcode ≠ 0 ∧
    (∃ t, step (presenting 0x01 { State.reset with errcode := 6 }) = .next t ∧ t.errcode ≠ 6) ∧
    (∃ t, step (presenting 0x02 { State.reset with errcode := 6 }) = .next t ∧ t.errcode ≠ 6) ∧
    (∃ t, step (setInputs [.reset] { State.reset with errcode := 6 }) = .next t ∧ t.errcode ≠ 6) :=
  ⟨by decide, exists_next (by decide), exists_next (by decide), exists_next (by decide)⟩

/-- An effect on `X`, and a rejection that records a code. -/
theorem test_witness_PrimitiveCommandsFrame :
    (∃ t, exec .permute (withX unitX) = .next t ∧ t.x ≠ unitX) ∧
    (∃ t, exec (.qr 2 7 7 13) (withX unitX) = .next t ∧ t.errcode ≠ (withX unitX).errcode) :=
  ⟨exists_next (by decide +kernel), exists_next (by decide +kernel)⟩

theorem test_witness_BlockCommandsFrame :
    (∃ t, exec .hcc20 (loaded nonce24) = .next t ∧ t.out ≠ (loaded nonce24).out) ∧
    (∃ t, exec .cc20Block State.reset = .next t ∧ t.errcode ≠ State.reset.errcode) :=
  ⟨exists_next (by decide +kernel), exists_next (by decide +kernel)⟩

theorem test_witness_StreamCommandsFrame :
    (∃ t, exec .ctrStart { loaded nonce24 with len := 70 } = .next t ∧ t.rem = 70) ∧
    (∃ t, exec .blkXor (live 1 114) = .next t ∧ t.rem = 50) ∧
    (∃ t, exec .xccStart (live 1 114) = .next t ∧ t.errcode ≠ (live 1 114).errcode) :=
  ⟨exists_next (by decide +kernel), exists_next (by decide +kernel), exists_next (by decide +kernel)⟩

/-- Both ways to lose a valid bit, at the top bit of each mask. -/
theorem test_witness_ValidBitsClearedOnlyByClearOrReset :
    (∃ t, step (presenting 0x02 (loaded nonce24)) = .next t ∧
      (loaded nonce24).keyv.getLsbD 7 = true ∧ t.keyv.getLsbD 7 = false) ∧
    (∃ t, step (setInputs [.reset] (loaded nonce24)) = .next t ∧
      (loaded nonce24).noncev.getLsbD 5 = true ∧ t.noncev.getLsbD 5 = false) :=
  ⟨exists_next (by decide), exists_next (by decide)⟩

/-- Each of the five ways to change `CTR`. -/
theorem test_witness_CounterChangedOnlyByStreamCommands :
    (∃ t, step (setInputs [.reset] (live 1 114)) = .next t ∧ t.ctr ≠ 1) ∧
    (∃ t, step (presenting 0x02 (live 1 114)) = .next t ∧ t.ctr ≠ 1) ∧
    (∃ t, step (presenting 0x30 { loaded nonce24 with ictr := 5 }) = .next t ∧ t.ctr ≠ 0) ∧
    (∃ t, step (presenting 0x31 { loaded nonce24 with ictr := 5 }) = .next t ∧ t.ctr ≠ 0) ∧
    (∃ t, step (presenting 0x32 (live 1 114)) = .next t ∧ t.ctr ≠ 1) :=
  ⟨exists_next (by decide), exists_next (by decide), exists_next (by decide +kernel), exists_next (by decide +kernel),
    exists_next (by decide +kernel)⟩

theorem test_witness_OtherCommandsIgnoreX :
    Instr.blkXor ∈ [Instr.nop, .clrerr, .cc20Block, .hcc20, .ctrStart, .xccStart, .blkXor] := by decide

/-- Two units that differ in what the commands do not read, each starting a stream; and two live ones. -/
theorem test_witness_StreamDependsOnNamedRegistersOnly :
    ((∃ t, exec .blkXor (live 1 114) = .next t ∧ t.rem = 50) ∧
      ∃ t, exec .blkXor { live 1 114 with x := ramp, errcode := 6 } = .next t ∧ t.rem = 50) ∧
    ((∃ t, exec .xccStart { loaded nonce24 with len := 70 } = .next t ∧ t.rsp = some ⟨false, 0⟩) ∧
      ∃ t, exec .xccStart { loaded nonce24 with len := 70, x := ramp } = .next t ∧ t.rsp = some ⟨false, 0⟩) :=
  ⟨⟨exists_next (by decide +kernel), exists_next (by decide +kernel)⟩,
    exists_next (by decide +kernel), exists_next (by decide +kernel)⟩

/-- A store, a command that repeats, a rejection and a read; a command that does not repeat breaks the premise. -/
theorem test_witness_RepeatedTransactionIsIdempotent :
    (∃ t, transact (wr (.key 7) 0x1F1E1D1C) State.reset = .next t ∧ t.keyv = 0x80) ∧
    (∃ t, transact (cmd .ctrStart) { loaded nonce24 with len := 70 } = .next t ∧ t.rem = 70) ∧
    (decode 0x00000030 = .ok .ctrStart ∧
      Instr.ctrStart ∈ [Instr.nop, .clrerr, .clear, .cc20Block, .hcc20, .ctrStart, .xccStart]) ∧
    (decode 0x00000032 = .ok .blkXor ∧
      Instr.blkXor ∉ [Instr.nop, .clrerr, .clear, .cc20Block, .hcc20, .ctrStart, .xccStart]) :=
  ⟨exists_next (by decide), exists_next (by decide +kernel), by decide, by decide⟩

/-- A live stream as a start leaves it. -/
def started : State := { live 1 50 with key := keyWords, keyv := 0xFF, noncev := 0b000111 }

/-- A state with a live stream that has the invariant, and a step from it that ends the stream. -/
theorem test_witness_StepKeepsInvariant : UnitInv (presenting 0x32 started) ∧
    ∃ t, step (presenting 0x32 started) = .next t ∧ t.phase = .idle :=
  ⟨⟨by decide, by decide, by decide, by decide, by decide, by decide⟩, exists_next (by decide +kernel)⟩

theorem test_witness_WordsBytesInverse : ([0x40, 0x41, 0x42, 0x43, 0x44, 0x45, 0x46, 0x47] : List Byte).length % 4 = 0 ∧
    wordsLe [0x40, 0x41, 0x42, 0x43, 0x44, 0x45, 0x46, 0x47] = [0x43424140, 0x47464544] := by decide

theorem test_witness_KeystreamContinuity : (List.replicate 64 (0 : Byte)).length = 64 * 1 := by simp

theorem test_witness_StreamRealisesCounterMode : (live 1 114).phase = .stream ∧ (live 1 114).rem ≠ 0 ∧
    (List.replicate 114 (0 : Byte)).length = (live 1 114).rem.toNat := by
  refine ⟨rfl, by decide, ?_⟩
  rw [List.length_replicate]
  decide

theorem test_witness_EncryptGivesPayload : (List.replicate 32 (0 : Byte)).length = 32 ∧
    (List.replicate 24 (0 : Byte)).length = 24 ∧ ([] : List Byte).length < 2 ^ 32 := by decide

theorem test_witness_DecryptInvertsEncrypt : (List.replicate 32 (0 : Byte)).length = 32 ∧
    (List.replicate 24 (0 : Byte)).length = 24 ∧ (List.replicate 70 (0 : Byte)).length < 2 ^ 32 := by simp

/-- 130 bytes in three streams of one block each. -/
theorem test_witness_LongMessageInChunks : (List.replicate 32 (0 : Byte)).length = 32 ∧
    (List.replicate 24 (0 : Byte)).length = 24 ∧ 0 < 1 ∧ 64 * 1 < 2 ^ 32 ∧
    (List.replicate 130 (0 : Byte)).length ≤ 3 * (64 * 1) := by simp

/-- A short key; a key with a nonce of each length; no draw and a short draw; a short payload. -/
theorem test_witness_DriverValidatesInputs : (List.replicate 31 (0 : Byte)).length ≠ 32 ∧
    ((List.replicate 32 (0 : Byte)).length = 32 ∧ (List.replicate 12 (0 : Byte)).length = 12 ∧
      (List.replicate 16 (0 : Byte)).length = 16 ∧ (List.replicate 24 (0 : Byte)).length = 24 ∧
      (List.replicate 25 (0 : Byte)).length ≠ 24) ∧
    (∀ d, (none : Option (List Byte)) = some d → d.length ≠ 24) ∧
    (∀ d, some (List.replicate 23 (0 : Byte)) = some d → d.length ≠ 24) ∧
    (List.replicate 23 (0 : Byte)).length < 24 := by
  refine ⟨by decide, by decide, by simp, ?_, by decide⟩
  rintro d ⟨⟩
  decide

end Sys2Proof.Tests
end

section
/-! The conversions between bytes and words of R10, bit by bit, and that they are each other's inverse (O53). -/

namespace Sys2Proof.Machine

/-- Bit `i` of byte `k` is bit `8k + i` of the word (R10). -/
@[simp] theorem getLsbD_byteK (k : Nat) (w : Word) (i : Nat) :
    (byteK k w).getLsbD i = (decide (i < 8) && w.getLsbD (8 * k + i)) := by
  simp [byteK]

/-- Bit `i` of an assembled word lies in byte `i / 8` (R10). -/
theorem getLsbD_le32 (b0 b1 b2 b3 : Byte) (i : Nat) :
    (le32 b0 b1 b2 b3).getLsbD i =
      if i < 8 then b0.getLsbD i else if i < 16 then b1.getLsbD (i - 8)
      else if i < 24 then b2.getLsbD (i - 16) else b3.getLsbD (i - 24) := by
  have beyond (b : Byte) (n : Nat) (h : 8 ≤ n) : b.getLsbD n = false := BitVec.getLsbD_of_ge b n h
  simp only [le32, BitVec.getLsbD_or, BitVec.getLsbD_shiftLeft, BitVec.getLsbD_setWidth]
  split_ifs <;> grind

/-- Byte `k` of an assembled word is the `k`-th byte it was assembled from (R10). -/
theorem byteK_le32 (b0 b1 b2 b3 : Byte) :
    byteK 0 (le32 b0 b1 b2 b3) = b0 ∧ byteK 1 (le32 b0 b1 b2 b3) = b1 ∧
      byteK 2 (le32 b0 b1 b2 b3) = b2 ∧ byteK 3 (le32 b0 b1 b2 b3) = b3 := by
  refine ⟨?_, ?_, ?_, ?_⟩ <;> refine BitVec.eq_of_getLsbD_eq fun i hi => ?_ <;>
    rw [getLsbD_byteK, getLsbD_le32] <;> grind

@[simp] theorem bytesOfWord_le32 (b0 b1 b2 b3 : Byte) : bytesOfWord (le32 b0 b1 b2 b3) = [b0, b1, b2, b3] := by
  simp [bytesOfWord, byteK_le32]

/-- A word is assembled from its own bytes. -/
@[simp] theorem le32_byteK (w : Word) : le32 (byteK 0 w) (byteK 1 w) (byteK 2 w) (byteK 3 w) = w := by
  refine BitVec.eq_of_getLsbD_eq fun i hi => ?_
  simp only [getLsbD_le32, getLsbD_byteK]
  split_ifs <;> grind

@[simp] theorem wordsLe_bytesOfWord_append (w : Word) (bs : List Byte) :
    wordsLe (bytesOfWord w ++ bs) = w :: wordsLe bs := by
  simp [bytesOfWord]

theorem wordsLe_bytesLe (ws : List Word) : wordsLe (bytesLe ws) = ws := by
  induction ws with
  | nil => rfl
  | cons w ws ih => rw [bytesLe_cons, wordsLe_bytesOfWord_append, ih]

/-- Along the recursion of `wordsLe`, four bytes at a time: the length condition leaves only the empty rest. -/
theorem bytesLe_wordsLe : ∀ s : List Byte, s.length % 4 = 0 → bytesLe (wordsLe s) = s
  | [], _ => rfl
  | [_], h | [_, _], h | [_, _, _], h => absurd h (by simp)
  | b0 :: b1 :: b2 :: b3 :: rest, h => by
    have hrest : rest.length % 4 = 0 := by simpa [Nat.add_assoc] using h
    rw [wordsLe_cons, bytesLe_cons, bytesOfWord_le32, bytesLe_wordsLe rest hrest]
    rfl

/-- Settles O53: each direction by induction, from the inverse on one word and its four bytes. -/
theorem wordsBytesInverse : Obligations.WordsBytesInverse :=
  ⟨bytesLe_wordsLe, wordsLe_bytesLe⟩

end Sys2Proof.Machine
end

section
/-! What a step can do, sorted by its effect, and what the shared operations leave unchanged: the word of a command
without operands, the stores (R53), a rejection (R181), the start of a stream (R132, R152) and `BLK_XOR` (R133). -/

namespace Sys2Proof.Machine

/-! ### Decoded words -/

/-- The word of a format-N command is its opcode (R71, R74). -/
theorem encode_of_formatN {opc : BitVec 8} {i : Instr} (h : formatN opc = some i) : encode i = opc.setWidth 32 := by
  unfold formatN at h
  split_ifs at h with h0 h1 h2 h3 h4 h5 h6 h7 h8 h9 <;> cases h <;> subst opc <;> decide

/-- A word whose bits 31:8 are 0 is its opcode. -/
theorem word_eq_opcode {w : Word} (h : w.extractLsb' 8 24 = 0#24) : w = (opcodeOf w).setWidth 32 := by
  refine BitVec.eq_of_getLsbD_eq fun i hi => ?_
  by_cases h8 : i < 8
  · simp [opcodeOf, h8, hi]
  · have hbit : (w.extractLsb' 8 24).getLsbD (i - 8) = false := by rw [h, BitVec.getLsbD_zero]
    simpa [opcodeOf, h8, hi, show i - 8 < 24 by omega, show 8 + (i - 8) = i by omega] using hbit

/-- A word that decodes to a command without operands is that command's word (R74, R76). -/
theorem word_of_decode {w : Word} {i : Instr} (h : decode w = .ok i) (hi : ∀ a b c d, i ≠ .qr a b c d) :
    w = encode i := by
  unfold decode at h
  split at h
  · unfold decodeQ at h
    split_ifs at h
    cases h
    exact absurd rfl (hi _ _ _ _)
  · unfold decodeN at h
    split at h
    · cases h
    next j hj =>
      split_ifs at h with hz
      cases h
      rw [encode_of_formatN hj]
      exact word_eq_opcode (not_not.mp hz)

/-! ### Stores -/

@[simp] theorem writeReg_errcode (r : Reg) (v : Word) (s : State) : (writeReg r v s).errcode = s.errcode := by
  cases r <;> rfl

@[simp] theorem writeReg_ctr (r : Reg) (v : Word) (s : State) : (writeReg r v s).ctr = s.ctr := by
  cases r <;> rfl

theorem getLsbD_setValid {w : Nat} (m : BitVec w) (i j : Nat) (hj : j < w) :
    (setValid m i).getLsbD j = (m.getLsbD j || decide (j = i)) := by
  simp only [setValid, BitVec.getLsbD_or, BitVec.getLsbD_shiftLeft, BitVec.getLsbD_one, hj]
  grind

/-- A set valid bit stays set when another word is written (R22, R23). -/
theorem getLsbD_setValid_of_set {w : Nat} {m : BitVec w} {j : Nat} (h : m.getLsbD j = true) (i : Nat) :
    (setValid m i).getLsbD j = true := by
  simp [setValid, h]

/-- Every valid bit set in the first state is set in the second. -/
def KeepsValidBits (s t : State) : Prop :=
  ∀ j, (s.keyv.getLsbD j = true → t.keyv.getLsbD j = true) ∧ (s.noncev.getLsbD j = true → t.noncev.getLsbD j = true)

/-- A store clears no valid bit (R53). -/
theorem writeReg_keepsValidBits (r : Reg) (v : Word) (s : State) : KeepsValidBits s (writeReg r v s) := fun j => by
  cases r with
  | key i => exact ⟨fun h => getLsbD_setValid_of_set h i, id⟩
  | nonce i => exact ⟨id, fun h => getLsbD_setValid_of_set h i⟩
  | _ => exact ⟨id, id⟩

/-! ### Rejections, starts and blocks -/

/-- A rejection changes `ERRCODE` only where no code was recorded (R38). -/
theorem errcode_eq_zero_of_reject_changes {e : ErrorKind} {s : State} (h : (reject e s).errcode ≠ s.errcode) :
    s.errcode = 0 := by
  by_contra hs
  exact h (if_neg hs)

/-- A start writes the position and the context, and nothing else (R40). -/
theorem startStream_frame (k : Vector Word 8) (n : Vector Word 3) (s : State) :
    startStream k n s = { s with
      akey := (startStream k n s).akey, anonce := (startStream k n s).anonce, ctr := (startStream k n s).ctr,
      rem := (startStream k n s).rem, phase := (startStream k n s).phase } := by
  unfold startStream
  split <;> rfl

/-- The block of a live stream as named updates (R133, R135): the context is kept where more than 64 bytes are left. -/
theorem exec_blkXor_updates {s : State} (hp : s.phase = .stream) :
    exec .blkXor s = .next (accept (setContext (if s.rem.toNat ≤ 64 then .idle else .stream)
      (if s.rem.toNat ≤ 64 then Vector.replicate 8 0 else s.akey)
      (if s.rem.toNat ≤ 64 then Vector.replicate 3 0 else s.anonce)
      (setPosition (s.ctr + 1) (s.rem - BitVec.ofNat 32 (min 64 s.rem.toNat))
        (setDout (xorBlock s.din (cc20Block s.akey s.ctr s.anonce) (min 64 s.rem.toNat)) s)))) := by
  rw [exec_blkXor_stream hp]
  simp only [accept_eq_respond, respond, setContext, setPosition, setDout]
  split
  · rfl
  · rw [hp]

/-- A block of a live stream writes `DOUT`, the position, the context and the response, and nothing else (R40). -/
theorem exec_blkXor_frame {s t : State} (hp : s.phase = .stream) (h : exec .blkXor s = .next t) :
    t = { s with
      dout := t.dout, akey := t.akey, anonce := t.anonce, ctr := t.ctr, rem := t.rem, phase := t.phase,
      rsp := t.rsp } := by
  rw [exec_blkXor_stream hp] at h
  cases h
  split <;> rfl

/-! ### Commands and steps -/

/-- Everything a step can do: nothing or a read, a reset, a store, a rejection of an access or of a word, a command. -/
theorem step_effects {s t : State} (h : step s = .next t) :
    (∃ rest r, t = { s with inputs := rest, rsp := r }) ∨
    (∃ rest, s.inputs = .reset :: rest ∧ t = resetUnit rest) ∨
    (∃ rest r v, t = respond ⟨false, 0⟩ (writeReg r v (setInputs rest s))) ∨
    (∃ rest e, (e = .access ∨ e = .illCmd) ∧ t = reject e (setInputs rest s)) ∨
    (∃ rest i w, s.inputs = .request (.write 0x008 .four w) :: rest ∧ decode w = .ok i ∧
      exec i (setInputs rest s) = .next t) := by
  obtain ⟨-, e⟩ | ⟨rest, hr, e⟩ | ⟨tr, rest, hr, e⟩ := step_cases s
  · rw [e] at h; cases h
    exact .inl ⟨_, _, rfl⟩
  · rw [e] at h; cases h
    exact .inr (.inl ⟨rest, hr, rfl⟩)
  · rw [e] at h
    obtain ⟨r, -, e⟩ | ⟨r, v, -, -, -, e⟩ | ⟨i, w, rfl, hd, e⟩ | ⟨k, hk, e⟩ := transact_cases tr (setInputs rest s)
    · rw [e] at h; cases h
      exact .inl ⟨rest, _, rfl⟩
    · rw [e] at h; cases h
      exact .inr (.inr (.inl ⟨rest, r, v, rfl⟩))
    · exact .inr (.inr (.inr (.inr ⟨rest, i, w, hr, hd, e ▸ h⟩)))
    · rw [e] at h; cases h
      exact .inr (.inr (.inr (.inl ⟨rest, k, hk, rfl⟩)))

end Sys2Proof.Machine
end

section
/-! The invariant of the unit's state: the fields it reads, the updates that keep it, and that every step does (O51),
from the reset state on (O52). -/

namespace Sys2Proof

open Sys2Proof.Machine

/-- The invariant reads no data register but `KEY` and `NONCE`, no counter, and no port. -/
theorem UnitInv.of_unread {s t : State} (h : UnitInv s)
    (e : t = { s with
      x := t.x, out := t.out, din := t.din, dout := t.dout, ictr := t.ictr, len := t.len, ctr := t.ctr,
      rsp := t.rsp, inputs := t.inputs }) : UnitInv t := by
  rw [e]
  exact ⟨h.stream_iff, h.idle_context, h.code, h.key_zero, h.nonce_zero, h.stream_loaded⟩

theorem unitInv_clearAll (s : State) : UnitInv (clearAll s) where
  stream_iff := by simp [clearAll, State.reset]
  idle_context _ := ⟨rfl, rfl⟩
  code := rfl
  key_zero i _ := Vector.getElem_replicate i.isLt
  nonce_zero i _ := Vector.getElem_replicate i.isLt
  stream_loaded h := nomatch h

theorem UnitInv.setErrcode {s : State} (h : UnitInv s) {c : BitVec 4} (hc : recordedCode c = true) :
    UnitInv (setErrcode c s) :=
  ⟨h.stream_iff, h.idle_context, hc, h.key_zero, h.nonce_zero, h.stream_loaded⟩

/-- A code the unit raises (R182): the other two are the host driver's. -/
theorem recordedCode_errorCode {e : ErrorKind} (he : e ≠ .malformed ∧ e ≠ .random) :
    recordedCode (errorCode e) = true := by
  cases e <;> simp_all [recordedCode, errorCode]

theorem UnitInv.reject {s : State} (h : UnitInv s) {e : ErrorKind} (he : e ≠ .malformed ∧ e ≠ .random) :
    UnitInv (reject e s) := by
  have hc : recordedCode (if s.errcode = 0 then errorCode e else s.errcode) = true := by
    split
    · exact recordedCode_errorCode he
    · exact h.code
  exact (h.setErrcode hc).of_unread rfl

/-- An element not marked valid after a store was not the stored one, and was not valid before. -/
theorem getElem_set_of_not_valid {w : Nat} {m : BitVec w} {a : Vector Word w} {i j : Fin w} {v : Word}
    (h : ∀ j : Fin w, m.getLsbD j = false → a[j] = 0) (hj : (setValid m i).getLsbD j = false) :
    (a.set i v)[j] = 0 := by
  rw [getLsbD_setValid _ _ _ j.isLt, Bool.or_eq_false_iff, decide_eq_false_iff_not] at hj
  obtain ⟨hm, hne⟩ := hj
  rw [Fin.getElem_fin, Vector.getElem_set_ne _ _ (Ne.symm hne)]
  exact h j hm

theorem UnitInv.loadKey {s : State} (h : UnitInv s) (i : Fin 8) (v : Word) : UnitInv (loadKey i v s) where
  stream_iff := h.stream_iff
  idle_context := h.idle_context
  code := h.code
  key_zero _ hj := getElem_set_of_not_valid h.key_zero hj
  nonce_zero := h.nonce_zero
  stream_loaded hp := by
    obtain ⟨hk, hn⟩ := h.stream_loaded hp
    refine ⟨?_, hn⟩
    rw [loadKey_keyv, hk]
    exact BitVec.allOnes_or

theorem UnitInv.loadNonce {s : State} (h : UnitInv s) (i : Fin 6) (v : Word) : UnitInv (loadNonce i v s) where
  stream_iff := h.stream_iff
  idle_context := h.idle_context
  code := h.code
  key_zero := h.key_zero
  nonce_zero _ hj := getElem_set_of_not_valid h.nonce_zero hj
  stream_loaded hp := by
    obtain ⟨hk, hn⟩ := h.stream_loaded hp
    refine ⟨hk, ?_⟩
    rw [loadNonce_noncev, setValid, BitVec.extractLsb'_or, hn]
    exact BitVec.allOnes_or

theorem UnitInv.writeReg {s : State} (h : UnitInv s) (r : Reg) (v : Word) : UnitInv (writeReg r v s) := by
  cases r with
  | key i => exact h.loadKey i v
  | nonce i => exact h.loadNonce i v
  | _ => exact h.of_unread rfl

/-- A start that its checks let through gives a live stream with a complete key and nonce, or none (R132, R152). -/
theorem UnitInv.startStream {s : State} (h : UnitInv s) (k : Vector Word 8) (n : Vector Word 3)
    (hk : keyComplete s = true) (hn : nonceComplete 3 s = true) : UnitInv (startStream k n s) := by
  rw [startStream_eq]
  split
  next => exact ⟨by simp, fun _ => ⟨rfl, rfl⟩, h.code, h.key_zero, h.nonce_zero, nofun⟩
  next hl =>
    exact ⟨by simpa using hl, nofun, h.code, h.key_zero, h.nonce_zero,
      fun _ => ⟨(keyComplete_iff s).mp hk, (nonceComplete_iff 3 s).mp hn⟩⟩

/-- A complete nonce is complete for a command that uses fewer words (R23). -/
theorem nonceComplete_of_le {m n : Nat} {s : State} (hmn : m ≤ n) (h : nonceComplete n s = true) :
    nonceComplete m s = true := by
  by_contra hm
  obtain ⟨j, hj, hv⟩ := (nonceComplete_eq_false_iff m s).mp (Bool.not_eq_true _ ▸ hm)
  exact absurd h (by simpa using (nonceComplete_eq_false_iff n s).mpr ⟨j, hj.trans_le hmn, hv⟩)

/-- A block of a live stream leaves it live with bytes left, or ends it (R133, R135). -/
theorem UnitInv.blkXor {s t : State} (h : UnitInv s) (hp : s.phase = .stream) (ht : exec .blkXor s = .next t) :
    UnitInv t := by
  have hrem := rem_after_block_eq_zero_iff s
  rw [exec_blkXor_stream hp] at ht
  cases ht
  split
  next hle =>
    exact ⟨iff_of_false nofun (not_not.mpr (hrem.mpr hle)), fun _ => ⟨rfl, rfl⟩, h.code, h.key_zero,
      h.nonce_zero, nofun⟩
  next hgt =>
    exact ⟨iff_of_true hp (mt hrem.mp hgt), fun hi => absurd (hp.symm.trans hi) (by decide), h.code, h.key_zero,
      h.nonce_zero, h.stream_loaded⟩

theorem UnitInv.exec {s t : State} {i : Instr} (h : UnitInv s) (ht : exec i s = .next t) : UnitInv t := by
  obtain ⟨e, he, rfl⟩ | ⟨-, rfl⟩ | ⟨-, rfl⟩ | ⟨-, rfl⟩ | ⟨-, v, rfl⟩ | ⟨-, v, rfl⟩ | ⟨-, hk, hn, k, n, rfl⟩ |
    ⟨-, hp, hb⟩ := exec_cases ht
  · exact h.reject he
  · exact h.of_unread rfl
  · exact (h.setErrcode rfl).of_unread rfl
  · exact (unitInv_clearAll s).of_unread rfl
  · exact h.of_unread rfl
  · exact h.of_unread rfl
  · have hn3 : nonceComplete 3 s = true := hn.elim id (nonceComplete_of_le (by decide))
    exact (h.startStream k n hk hn3).of_unread rfl
  · exact h.blkXor hp hb

/-- Settles O51, along the effects of a step: each update keeps the invariant. -/
theorem stepKeepsInvariant : Obligations.StepKeepsInvariant := by
  intro s t h ht
  have served (rest : List HostInput) : UnitInv (setInputs rest s) := h.of_unread rfl
  obtain ⟨rest, r, rfl⟩ | ⟨rest, -, rfl⟩ | ⟨rest, r, v, rfl⟩ | ⟨rest, e, he, rfl⟩ | ⟨rest, i, w, -, -, hx⟩ :=
    step_effects ht
  · exact h.of_unread rfl
  · exact unitInv_clearAll (resetUnit rest)
  · exact ((served rest).writeReg r v).of_unread rfl
  · exact (served rest).reject (by rcases he with rfl | rfl <;> decide)
  · exact (served rest).exec hx

/-- Settles O52: the reset state is what `CLEAR` leaves, with the ports as they are. -/
theorem resetHasInvariant : Obligations.ResetHasInvariant := fun l => unitInv_clearAll (setInputs l State.reset)

end Sys2Proof
end

section
/-! Who writes what (R40): the frames of the commands (O42 to O44), and what a step must have served where it changed
`ERRCODE`, a valid bit or `CTR` (O41, O45, O46). -/

namespace Sys2Proof

open Sys2Proof.Machine

/-- Settles O42: of the cases of a command, only a rejection and a new `X` are left. -/
theorem primitiveCommandsFrame : Obligations.PrimitiveCommandsFrame := by
  intro i s t hi ht
  have effect : (∃ e, t = reject e s) ∨ ∃ v, t = respond ⟨false, 0⟩ (setX v s) := by
    have := exec_cases ht
    obtain ⟨a, b, c, d, rfl⟩ | rfl | rfl := hi <;> grind
  obtain ⟨e, rfl⟩ | ⟨v, rfl⟩ := effect
  · exact ⟨rfl, fun hc => ⟨errcode_eq_zero_of_reject_changes hc, rfl⟩⟩
  · exact ⟨rfl, fun hc => absurd rfl hc⟩

/-- Settles O43: of the cases of a command, only a rejection and a new `OUT` are left. -/
theorem blockCommandsFrame : Obligations.BlockCommandsFrame := by
  intro i s t hi ht
  have effect : (∃ e, t = reject e s) ∨ ∃ v, t = respond ⟨false, 0⟩ (setOut v s) := by
    have := exec_cases ht
    obtain rfl | rfl := hi <;> grind
  obtain ⟨e, rfl⟩ | ⟨v, rfl⟩ := effect
  · exact ⟨rfl, fun hc => ⟨errcode_eq_zero_of_reject_changes hc, rfl⟩⟩
  · exact ⟨rfl, fun hc => absurd rfl hc⟩

/-- Settles O44: a rejection, a started stream, or a block of the live one. -/
theorem streamCommandsFrame : Obligations.StreamCommandsFrame := by
  intro i s t ht
  obtain ⟨e, -, rfl⟩ | ⟨rfl, -⟩ | ⟨rfl, -⟩ | ⟨rfl, -⟩ | ⟨hi, -⟩ | ⟨hi, -⟩ | ⟨hi, -, -, k, n, rfl⟩ | ⟨rfl, hp, hb⟩ :=
    exec_cases ht
  · exact ⟨fun _ => rfl, fun _ => rfl, fun _ hc => ⟨errcode_eq_zero_of_reject_changes hc, rfl⟩⟩
  · simp
  · simp
  · simp
  · obtain ⟨a, b, c, d, rfl⟩ | rfl | rfl := hi <;> simp
  · obtain rfl | rfl := hi <;> simp
  · have frame := startStream_frame k n s
    have same : (startStream k n s).errcode = s.errcode := by rw [frame]
    refine ⟨fun _ => ?_, ?_, fun _ hc => absurd same hc⟩
    · rw [respond_errcode, same]
      exact congrArg (respond ⟨false, 0⟩) frame
    · rintro rfl
      simp at hi
  · have frame := exec_blkXor_frame hp hb
    have same : t.errcode = s.errcode := by rw [frame]
    exact ⟨by simp, fun _ => by rw [same]; exact frame, fun _ hc => absurd same hc⟩

/-- A recorded code survives every command but `CLRERR` and `CLEAR` (R38). -/
theorem exec_errcode {i : Instr} {s t : State} (hs : s.errcode ≠ 0) (ht : exec i s = .next t) :
    t.errcode = s.errcode ∨ ((i = .clrerr ∨ i = .clear) ∧ t.errcode = 0) := by
  obtain ⟨e, -, rfl⟩ | ⟨-, rfl⟩ | ⟨hi, rfl⟩ | ⟨hi, rfl⟩ | ⟨-, v, rfl⟩ | ⟨-, v, rfl⟩ | ⟨-, -, -, k, n, rfl⟩ |
    ⟨-, hp, hb⟩ := exec_cases ht
  · exact .inl (if_neg hs)
  · exact .inl rfl
  · exact .inr ⟨.inl hi, rfl⟩
  · exact .inr ⟨.inr hi, rfl⟩
  · exact .inl rfl
  · exact .inl rfl
  · exact .inl (by rw [startStream_frame]; rfl)
  · exact .inl (by rw [exec_blkXor_frame hp hb])

/-- No command but `CLEAR` writes the valid bits (R40). -/
theorem exec_valid_bits {i : Instr} {s t : State} (ht : exec i s = .next t) :
    i = .clear ∨ (t.keyv = s.keyv ∧ t.noncev = s.noncev) := by
  obtain ⟨e, -, rfl⟩ | ⟨-, rfl⟩ | ⟨-, rfl⟩ | ⟨hi, -⟩ | ⟨-, v, rfl⟩ | ⟨-, v, rfl⟩ | ⟨-, -, -, k, n, rfl⟩ |
    ⟨-, hp, hb⟩ := exec_cases ht
  · exact .inr ⟨rfl, rfl⟩
  · exact .inr ⟨rfl, rfl⟩
  · exact .inr ⟨rfl, rfl⟩
  · exact .inl hi
  · exact .inr ⟨rfl, rfl⟩
  · exact .inr ⟨rfl, rfl⟩
  · exact .inr (by rw [startStream_frame]; exact ⟨rfl, rfl⟩)
  · exact .inr (by rw [exec_blkXor_frame hp hb]; exact ⟨rfl, rfl⟩)

/-- No command but `CLEAR` and the stream commands writes `CTR` (R40). -/
theorem exec_ctr {i : Instr} {s t : State} (ht : exec i s = .next t) :
    t.ctr = s.ctr ∨ i ∈ [.clear, .ctrStart, .xccStart, .blkXor] := by
  obtain ⟨e, -, rfl⟩ | ⟨-, rfl⟩ | ⟨-, rfl⟩ | ⟨rfl, -⟩ | ⟨-, v, rfl⟩ | ⟨-, v, rfl⟩ | ⟨hi, -⟩ | ⟨rfl, -⟩ := exec_cases ht
  · exact .inl rfl
  · exact .inl rfl
  · exact .inl rfl
  · exact .inr (by decide)
  · exact .inl rfl
  · exact .inl rfl
  · exact .inr (by obtain rfl | rfl := hi <;> decide)
  · exact .inr (by decide)

/-- Settles O41: along the effects of a step, only a reset and the two commands lose the code. -/
theorem errcodeStaysUntilCleared : Obligations.ErrcodeStaysUntilCleared := by
  intro s t hs ht hc
  obtain ⟨rest, r, rfl⟩ | ⟨rest, hr, rfl⟩ | ⟨rest, r, v, rfl⟩ | ⟨rest, e, -, rfl⟩ | ⟨rest, i, w, hr, hd, hx⟩ :=
    step_effects ht
  · exact absurd rfl hc
  · exact ⟨rfl, rest, .inl hr⟩
  · exact absurd (writeReg_errcode r v (setInputs rest s)) hc
  · exact absurd (errcode_eq_zero_of_reject_changes hc) hs
  · obtain he | ⟨hi, h0⟩ := exec_errcode (s := setInputs rest s) hs hx
    · exact absurd he hc
    · refine ⟨h0, rest, .inr ?_⟩
      obtain rfl | rfl := hi <;> rw [word_of_decode hd nofun] at hr
      · exact .inl hr
      · exact .inr hr

/-- Settles O45: a store only sets valid bits, and of the commands `CLEAR` alone writes them. -/
theorem validBitsClearedOnlyByClearOrReset : Obligations.ValidBitsClearedOnlyByClearOrReset := by
  intro s t j ht lost
  have hlost : ¬ KeepsValidBits s t := by
    intro kept
    obtain ⟨hkey, hnonce⟩ := kept j
    obtain ⟨h, h'⟩ | ⟨h, h'⟩ := lost
    · exact Bool.false_ne_true (h'.symm.trans (hkey h))
    · exact Bool.false_ne_true (h'.symm.trans (hnonce h))
  obtain ⟨rest, r, rfl⟩ | ⟨rest, hr, rfl⟩ | ⟨rest, r, v, rfl⟩ | ⟨rest, e, -, rfl⟩ | ⟨rest, i, w, hr, hd, hx⟩ :=
    step_effects ht
  · exact absurd (fun _ => ⟨id, id⟩) hlost
  · exact ⟨rest, .inl hr⟩
  · exact absurd (writeReg_keepsValidBits r v (setInputs rest s)) hlost
  · exact absurd (fun _ => ⟨id, id⟩) hlost
  · obtain rfl | ⟨hk, hn⟩ := exec_valid_bits hx
    · rw [word_of_decode hd nofun] at hr
      exact ⟨rest, .inr hr⟩
    · exact absurd (fun _ => ⟨fun h => hk ▸ h, fun h => hn ▸ h⟩) hlost

/-- Settles O46: no store reaches `CTR`, and of the commands only the four named write it. -/
theorem counterChangedOnlyByStreamCommands : Obligations.CounterChangedOnlyByStreamCommands := by
  intro s t ht hc
  obtain ⟨rest, r, rfl⟩ | ⟨rest, hr, rfl⟩ | ⟨rest, r, v, rfl⟩ | ⟨rest, e, -, rfl⟩ | ⟨rest, i, w, hr, hd, hx⟩ :=
    step_effects ht
  · exact absurd rfl hc
  · exact ⟨rest, .inl hr⟩
  · exact absurd (writeReg_ctr r v (setInputs rest s)) hc
  · exact absurd rfl hc
  · have hi := (exec_ctr hx).resolve_left hc
    have hw : w = encode i := word_of_decode hd (by rintro a b c d rfl; simp at hi)
    refine ⟨rest, .inr ⟨w, ?_, hr⟩⟩
    simp only [List.mem_cons, List.not_mem_nil, or_false] at hi
    obtain rfl | rfl | rfl | rfl := hi <;> simp [hw, encode]

end Sys2Proof
end

section
/-! What the commands and the reads do not depend on, each as a statement about two runs: `ERRCODE` (O40), `X` (O47),
the key material (O48), and for a stream all but the registers its rules name (O49). -/

namespace Sys2Proof

open Sys2Proof.Machine

/-- Both runs answer a next state, and the two are related. -/
def BothAnswer (R : State → State → Prop) (r r' : Result) : Prop :=
  ∃ t t', r = .next t ∧ r' = .next t' ∧ R t t'

theorem bothAnswer_next_iff {R : State → State → Prop} {t t' : State} :
    BothAnswer R (.next t) (.next t') ↔ R t t' :=
  ⟨fun ⟨_, _, e, e', h⟩ => by cases e; cases e'; exact h, fun h => ⟨t, t', rfl, rfl, h⟩⟩

/-- Two units with the same valid bits end the key and nonce checks alike (R183, R184). -/
theorem withKeyAndNonce_both {R : State → State → Prop} {m : Nat} {f : State → State} {s s' : State}
    (hk : s.keyv = s'.keyv) (hn : s.noncev = s'.noncev) (hrej : ∀ e, R (reject e s) (reject e s'))
    (hacc : R (accept (f s)) (accept (f s'))) :
    BothAnswer R (withKeyAndNonce m f s) (withKeyAndNonce m f s') := by
  unfold withKeyAndNonce
  rw [show keyComplete s' = keyComplete s by simp only [keyComplete, hk],
    show nonceComplete m s' = nonceComplete m s by simp only [nonceComplete, hn]]
  split_ifs <;> rw [bothAnswer_next_iff]
  · exact hrej _
  · exact hrej _
  · exact hacc

/-- Two units that agree in every register a block or a stream command reads (R40). -/
structure SameOperands (s s' : State) : Prop where
  key : s.key = s'.key
  keyv : s.keyv = s'.keyv
  nonce : s.nonce = s'.nonce
  noncev : s.noncev = s'.noncev
  ictr : s.ictr = s'.ictr
  len : s.len = s'.len
  phase : s.phase = s'.phase
  akey : s.akey = s'.akey
  anonce : s.anonce = s'.anonce
  ctr : s.ctr = s'.ctr
  rem : s.rem = s'.rem
  din : s.din = s'.din

/-- The block and stream commands give two units that agree in the registers they read the same rejection or the same
update, so a relation that those respect holds of the two next states. -/
theorem exec_both_of_sameOperands {R : State → State → Prop} {s s' : State} (h : SameOperands s s')
    (hrej : ∀ e, R (reject e s) (reject e s'))
    (hout : ∀ v, R (accept (setOut v s)) (accept (setOut v s')))
    (hstart : ∀ c r p k n, R (accept (setContext p k n (setPosition c r s)))
      (accept (setContext p k n (setPosition c r s'))))
    (hblock : ∀ d c r p k n, R (accept (setContext p k n (setPosition c r (setDout d s))))
      (accept (setContext p k n (setPosition c r (setDout d s'))))) :
    ∀ i ∈ [Instr.cc20Block, .hcc20, .ctrStart, .xccStart, .blkXor], BothAnswer R (exec i s) (exec i s') := by
  have started (k : Vector Word 8) (n : Vector Word 3) :
      R (accept (startStream k n s)) (accept (startStream k n s')) := by
    unfold startStream
    rw [← h.len, ← h.ictr]
    split
    · exact hstart _ _ _ _ _
    · exact hstart _ _ _ _ _
  intro i hi
  cases i with
  | cc20Block =>
    rw [exec_cc20Block_checked, exec_cc20Block_checked]
    refine withKeyAndNonce_both h.keyv h.noncev hrej ?_
    rw [nonce12, nonce12, h.key, h.ictr, h.nonce]
    exact hout _
  | hcc20 =>
    rw [exec_hcc20_checked, exec_hcc20_checked]
    refine withKeyAndNonce_both h.keyv h.noncev hrej ?_
    rw [nonce16, nonce16, h.key, h.nonce]
    exact hout _
  | ctrStart =>
    rw [exec_ctrStart_checked, exec_ctrStart_checked]
    refine withKeyAndNonce_both h.keyv h.noncev hrej ?_
    rw [nonce12, nonce12, h.key, h.nonce]
    exact started _ _
  | xccStart =>
    rw [exec_xccStart_checked, exec_xccStart_checked]
    refine withKeyAndNonce_both h.keyv h.noncev hrej ?_
    rw [subkey, subkey, splitNonce, splitNonce, nonce16, nonce16, h.key, h.nonce]
    exact started _ _
  | blkXor =>
    cases hp : s.phase with
    | idle =>
      rw [exec_blkXor_idle hp, exec_blkXor_idle (h.phase ▸ hp), bothAnswer_next_iff]
      exact hrej _
    | stream =>
      rw [exec_blkXor_updates hp, exec_blkXor_updates (h.phase ▸ hp), ← h.din, ← h.akey, ← h.anonce, ← h.ctr,
        ← h.rem, bothAnswer_next_iff]
      exact hblock _ _ _ _ _ _
  | nop | clrerr | clear | qr a b c d | dround | permute => simp at hi

/-- Two states that differ in `ERRCODE` at most. -/
def AgreeButErrcode (t t' : State) : Prop := setErrcode 0 t' = setErrcode 0 t

/-- The second state is the first with `X` replaced. -/
def WithX (y : Vector Word 16) (t t' : State) : Prop := t' = setX y t

/-- Settles O40: every command keeps the agreement of two states in all but `ERRCODE`. -/
theorem commandsIgnoreErrcode : Obligations.CommandsIgnoreErrcode := by
  intro i s c
  change BothAnswer AgreeButErrcode (exec i s) (exec i (setErrcode c s))
  have keyed := exec_both_of_sameOperands (R := AgreeButErrcode) (s := s) (s' := setErrcode c s)
    ⟨rfl, rfl, rfl, rfl, rfl, rfl, rfl, rfl, rfl, rfl, rfl, rfl⟩ (fun _ => rfl) (fun _ => rfl)
    (fun _ _ _ _ _ => rfl) (fun _ _ _ _ _ _ => rfl)
  cases i with
  | nop => exact bothAnswer_next_iff.mpr rfl
  | clrerr => exact bothAnswer_next_iff.mpr rfl
  | clear => exact bothAnswer_next_iff.mpr rfl
  | qr a b c' d =>
    cases hd : pairwiseDistinct a b c' d with
    | false =>
      rw [exec_qr_aliased hd, exec_qr_aliased hd, bothAnswer_next_iff]
      rfl
    | true =>
      rw [exec_qr hd, exec_qr hd, bothAnswer_next_iff]
      rfl
  | dround => exact bothAnswer_next_iff.mpr rfl
  | permute => exact bothAnswer_next_iff.mpr rfl
  | cc20Block | hcc20 | ctrStart | xccStart | blkXor => exact keyed _ (by decide)

/-- Settles O47: each of these commands does the same beside a replaced `X`. -/
theorem otherCommandsIgnoreX : Obligations.OtherCommandsIgnoreX := by
  intro i s y hi
  have keyed := exec_both_of_sameOperands (R := WithX y) (s := s) (s' := setX y s)
    ⟨rfl, rfl, rfl, rfl, rfl, rfl, rfl, rfl, rfl, rfl, rfl, rfl⟩ (fun _ => rfl) (fun _ => rfl)
    (fun _ _ _ _ _ => rfl) (fun _ _ _ _ _ _ => rfl)
  have both : BothAnswer (WithX y) (exec i s) (exec i (setX y s)) := by
    cases i with
    | nop => exact bothAnswer_next_iff.mpr rfl
    | clrerr => exact bothAnswer_next_iff.mpr rfl
    | cc20Block | hcc20 | ctrStart | xccStart | blkXor => exact keyed _ (by decide)
    | clear | qr a b c d | dround | permute => simp at hi
  obtain ⟨t, t', ht, ht', rfl⟩ := both
  exact ⟨t, ht, ht'⟩

/-- Settles O48: no readable register is `KEY`, and none shows `AKEY` or `ANONCE`. -/
theorem keyMaterialUnreadable : Obligations.KeyMaterialUnreadable := by
  intro s k ak an a n
  cases h : readTarget a n with
  | none => exact ⟨_, _, memRead_rejected h _, memRead_rejected h _, rfl, rfl⟩
  | some r =>
    have same : readReg r { s with key := k, akey := ak, anonce := an } = readReg r s := by cases r <;> rfl
    refine ⟨_, _, memRead_reg h _, memRead_reg h _, ?_, rfl⟩
    rw [same]
    rfl

/-- The registers a start command writes are equal in two states (R132, R152). -/
def SameStream (t t' : State) : Prop :=
  t.akey = t'.akey ∧ t.anonce = t'.anonce ∧ t.ctr = t'.ctr ∧ t.rem = t'.rem ∧ t.phase = t'.phase

/-- They are equal where the first unit accepted the command. -/
def SameStreamIfOk (t t' : State) : Prop := t.rsp = some ⟨false, 0⟩ → SameStream t t'

/-- A start reads `ICTR` and `LEN` beside the key and nonce it is given (R132). -/
theorem startStream_same {s s' : State} (hc : s.ictr = s'.ictr) (hl : s.len = s'.len) (k : Vector Word 8)
    (n : Vector Word 3) : SameStream (startStream k n s) (startStream k n s') := by
  unfold SameStream startStream
  rw [hl, hc]
  split <;> exact ⟨rfl, rfl, rfl, rfl, rfl⟩

/-- Settles O49: the two runs take the same branches and write the same values. -/
theorem streamDependsOnNamedRegistersOnly : Obligations.StreamDependsOnNamedRegistersOnly := by
  intro s s' t t'
  constructor
  · intro hp hk hn hc hr hd hs ht ht'
    rw [exec_blkXor_stream hs] at ht
    rw [exec_blkXor_stream (hp ▸ hs), ← hk, ← hn, ← hc, ← hr, ← hd] at ht'
    cases ht; cases ht'
    split
    · exact ⟨rfl, rfl, rfl, rfl, rfl, rfl⟩
    · exact ⟨rfl, rfl, rfl, hp, rfl, rfl⟩
  · intro hk hkv hn hnv hc hl i hi ht ht' hok
    have both : BothAnswer SameStreamIfOk (exec i s) (exec i s') := by
      obtain rfl | rfl := hi
      · rw [exec_ctrStart_checked, exec_ctrStart_checked]
        refine withKeyAndNonce_both hkv hnv (fun _ => nofun) fun _ => ?_
        rw [nonce12, nonce12, hk, hn]
        exact startStream_same hc hl _ _
      · rw [exec_xccStart_checked, exec_xccStart_checked]
        refine withKeyAndNonce_both hkv hnv (fun _ => nofun) fun _ => ?_
        rw [subkey, subkey, splitNonce, splitNonce, nonce16, nonce16, hk, hn]
        exact startStream_same hc hl _ _
    rw [ht, ht', bothAnswer_next_iff] at both
    exact both hok

end Sys2Proof
end

section
/-! A step runs the command whose word the host writes to `CMD` (O7), and the table of R39 after reset and after `CLEAR`
(O15). -/

namespace Sys2Proof

open Sys2Proof.Machine

/-- A write of a command's word to `CMD` runs the command (R30, R76). -/
theorem transact_commandWrite {w : Word} {i : Instr} (h : decode w = .ok i) (s : State) :
    transact (commandWrite w) s = exec i s :=
  (memWrite_cmd (writeTarget_regOffset (by decide)) w s).trans (runCommand_legal h s)

theorem tableWord_toNat (w : Word) : tableWord 32 w.toNat = w := by
  rw [tableWord, Nat.mod_eq_of_lt w.isLt, BitVec.ofNat_toNat, BitVec.setWidth_eq]

/-- Settles O7: the input served is the write of the word, and taking it away again undoes `withFetchWord`. -/
theorem stepRunsDecodedCommand : Obligations.StepRunsDecodedCommand := by
  intro s rest w i h
  constructor
  · intro hr
    exact (step_request hr).trans (transact_commandWrite h _)
  · rw [State.withFetchWord, tableWord_toNat]
    exact (step_request rfl).trans (transact_commandWrite h s)

theorem resetValues_clearAll (s : State) : ResetValues (clearAll s) where
  x i := Vector.getElem_replicate i.isLt
  key i := Vector.getElem_replicate i.isLt
  keyv := rfl
  nonce i := Vector.getElem_replicate i.isLt
  noncev := rfl
  out i := Vector.getElem_replicate i.isLt
  din i := Vector.getElem_replicate i.isLt
  dout i := Vector.getElem_replicate i.isLt
  ictr := rfl
  len := rfl
  ctr := rfl
  rem := rfl
  errcode := rfl
  phase := rfl
  akey i := Vector.getElem_replicate i.isLt
  anonce i := Vector.getElem_replicate i.isLt
  status := by simp [readReg, statusView, clearAll, State.reset, phaseBit]
  id := rfl

/-- Settles O15: both are `clearAll` of a state, whatever its ports hold. -/
theorem resetAndClearValues : Obligations.ResetAndClearValues :=
  ⟨resetValues_clearAll State.reset, fun s =>
    ⟨_, exec_clear s, rfl, resetValues_clearAll (respond ⟨false, 0⟩ s)⟩⟩

end Sys2Proof
end

section
/-! The transactions of the window (R52 to R56): the map and its inverse (O11), the rules of a read (O9) and of a write
(O10), the size codes that are not 4 bytes (O14), and the step that serves a transaction and always answers (O6, O13). -/

namespace Sys2Proof

open Sys2Proof.Machine

/-! ### Accesses by the offset of a register -/

/-- An offset in a register file is the offset of the element of that index (R54). -/
theorem eq_fileOffset {a : Offset} {base i : Nat} (h : a.toNat = base + 4 * i) : a = fileOffset base i := by
  rw [fileOffset, ← h, BitVec.ofNat_toNat, BitVec.setWidth_eq]

theorem transact_read_rejected {a : Offset} {n : AccessSize} (h : ReadAccessError a n) (s : State) :
    transact (.read a n) s = .next (rejected 7 s) :=
  memRead_rejected ((readTarget_eq_none_iff a n).mpr h) s

theorem transact_write_rejected {a : Offset} {n : AccessSize} (h : WriteAccessError a n) (v : Word) (s : State) :
    transact (.write a n v) s = .next (rejected 7 s) :=
  memWrite_rejected ((writeTarget_eq_none_iff a n).mpr h) v s

theorem transact_read_reg {a : Offset} {r : Reg} (ha : a = regOffset r) (hr : accessOf r ≠ .writeOnly) (s : State) :
    transact (.read a .four) s = .next (respond ⟨false, readReg r s⟩ s) := by
  subst ha
  exact memRead_reg (readTarget_regOffset hr) s

theorem transact_write_reg {a : Offset} {r : Reg} (ha : a = regOffset r) (hr : accessOf r ≠ .readOnly)
    (hc : r ≠ .cmd) (v : Word) (s : State) :
    transact (.write a .four v) s = .next (respond ⟨false, 0⟩ (writeReg r v s)) := by
  subst ha
  exact memWrite_reg (writeTarget_regOffset hr) hc v s

/-! ### The statements -/

/-- Settles O11, by the check of every register and of every offset. -/
theorem windowMapInverse : Obligations.WindowMapInverse :=
  ⟨regAt_regOffset, fun _ _ => regOffset_of_regAt⟩

/-- Settles O9: each offset is that of its register, and the read gives the register's value. -/
theorem readTransactionRule : Obligations.ReadTransactionRule := by
  intro s a n gives
  refine ⟨fun h => transact_read_rejected h s, ?_⟩
  rintro rfl
  have reads (r : Reg) (hr : accessOf r ≠ .writeOnly) (ha : a = regOffset r) : gives (readReg r s) :=
    transact_read_reg ha hr s
  refine ⟨reads .id (by decide), fun ha => ?status, reads .ictr (by decide), reads .len (by decide),
    reads .ctr (by decide), reads .rem (by decide), fun i ha => reads (.nonce i) nofun (eq_fileOffset ha),
    fun i ha => reads (.x i) nofun (eq_fileOffset ha), fun i ha => reads (.out i) nofun (eq_fileOffset ha),
    fun i ha => reads (.din i) nofun (eq_fileOffset ha), fun i ha => reads (.dout i) nofun (eq_fileOffset ha)⟩
  case status =>
    have view := reads .status (by decide) ha
    rw [readReg, statusView] at view
    cases hp : s.phase <;> rw [hp] at view <;> exact view

/-- Settles O10: each offset is that of its register, and the write stores there or runs the word. -/
theorem writeTransactionRule : Obligations.WriteTransactionRule := by
  intro s a n v u after
  refine ⟨fun h => transact_write_rejected h v s, ?_⟩
  rintro rfl
  have stores (r : Reg) (hr : accessOf r ≠ .readOnly) (hc : r ≠ .cmd) (ha : a = regOffset r) :
      after = .next (respond ⟨false, 0⟩ (writeReg r v s)) := transact_write_reg ha hr hc v s
  refine ⟨?command, stores .ictr (by decide) nofun, stores .len (by decide) nofun,
    fun i ha => stores (.key i) nofun nofun (eq_fileOffset ha),
    fun i ha => stores (.nonce i) nofun nofun (eq_fileOffset ha),
    fun i ha => stores (.x i) nofun nofun (eq_fileOffset ha),
    fun i ha => stores (.din i) nofun nofun (eq_fileOffset ha)⟩
  case command =>
    rintro rfl
    have runs : after = runCommand v s := memWrite_cmd (writeTarget_regOffset (r := .cmd) (by decide)) v s
    rw [runs]
    cases hd : decode v with
    | error e => exact runCommand_illegal hd s
    | ok i => exact runCommand_legal hd s

theorem sizeOfPort_ne_four {z : BitVec 2} (h : z ≠ 2) : sizeOfPort z ≠ .four := by
  revert z
  decide

/-- Settles O14: a size that is not 4 is the first of the access errors, in either direction. -/
theorem portSizeNotFourRejected : Obligations.PortSizeNotFourRejected := by
  intro s write a z v hz
  cases write with
  | false => exact transact_read_rejected (.inl (sizeOfPort_ne_four hz)) s
  | true => exact transact_write_rejected (.inl (sizeOfPort_ne_four hz)) v s

/-- Settles O6. -/
theorem stepServesFirstRequest : Obligations.StepServesFirstRequest :=
  fun _ _ _ => step_request

/-- Settles O13: an idle step and a reset answer, and so does every transaction. -/
theorem stepAlwaysAnswers : Obligations.StepAlwaysAnswers := by
  intro s
  obtain ⟨-, e⟩ | ⟨rest, -, e⟩ | ⟨tr, rest, -, e⟩ := step_cases s
  · exact ⟨_, e⟩
  · exact ⟨_, e⟩
  · rw [e]
    exact transact_answers tr _

end Sys2Proof
end

section
/-! A transaction repeated with none between leaves the state it left (O50): a rejection by the sticky code, a read
because it changes no register, a store because it writes the same value again, and each of the commands named because
it writes no register that it reads. -/

namespace Sys2Proof

open Sys2Proof.Machine

/-- No register shows the response port. -/
theorem readReg_respond (r : Reg) (p : Response) (s : State) : readReg r (respond p s) = readReg r s := by
  cases r <;> rfl

theorem setValid_setValid {w : Nat} (m : BitVec w) (i : Nat) : setValid (setValid m i) i = setValid m i := by
  rw [setValid, setValid, BitVec.or_assoc, BitVec.or_self]

/-- A store of the same value again changes nothing (R53). -/
theorem writeReg_again (r : Reg) (v : Word) (p : Response) (s : State) :
    respond p (writeReg r v (respond p (writeReg r v s))) = respond p (writeReg r v s) := by
  cases r with
  | key i => simp [writeReg, loadKey, respond, setValid_setValid]
  | nonce i => simp [writeReg, loadNonce, respond, setValid_setValid]
  | x i => simp [writeReg, setX, respond]
  | din i => simp [writeReg, setDin, respond]
  | _ => rfl

/-- A start from the registers the first one left starts the same stream (R132, R152). -/
theorem startStream_again (k : Vector Word 8) (n : Vector Word 3) (p : Response) (s : State) :
    respond p (startStream k n (respond p (startStream k n s))) = respond p (startStream k n s) := by
  by_cases h : s.len = 0
  · simp only [startStream_eq, respond, if_pos h]
  · simp only [startStream_eq, respond, if_neg h]

/-- A command with the key and nonce checks is idempotent where its effect keeps the valid bits and is so itself. -/
theorem withKeyAndNonce_again {m : Nat} {f : State → State} {s t : State} (hk : (f s).keyv = s.keyv)
    (hn : (f s).noncev = s.noncev) (hf : accept (f (accept (f s))) = accept (f s))
    (h : withKeyAndNonce m f s = .next t) : withKeyAndNonce m f t = .next t := by
  have key_of (u : State) (hu : u.keyv = s.keyv) : keyComplete u = keyComplete s := by simp only [keyComplete, hu]
  have nonce_of (u : State) (hu : u.noncev = s.noncev) : nonceComplete m u = nonceComplete m s := by
    simp only [nonceComplete, hu]
  obtain ⟨ek, e⟩ | ⟨ek, en, e⟩ | ⟨ek, en, e⟩ := withKeyAndNonce_cases m f s <;> rw [e] at h <;> cases h
  · simp [withKeyAndNonce, key_of (reject .keyLen s) rfl, ek, reject_after_reject]
  · simp [withKeyAndNonce, key_of (reject .nonceLen s) rfl, nonce_of (reject .nonceLen s) rfl, ek, en,
      reject_after_reject]
  · rw [withKeyAndNonce, key_of (accept (f s)) hk, nonce_of (accept (f s)) hn, ek, en, hf]
    rfl

/-- The commands that write no register they read are idempotent. -/
theorem exec_again {i : Instr} {s t : State}
    (hi : i ∈ [Instr.nop, .clrerr, .clear, .cc20Block, .hcc20, .ctrStart, .xccStart]) (h : exec i s = .next t) :
    exec i t = .next t := by
  have started (k : Vector Word 8) (n : Vector Word 3) : (startStream k n s).key = s.key ∧
      (startStream k n s).nonce = s.nonce ∧ (startStream k n s).keyv = s.keyv ∧
      (startStream k n s).noncev = s.noncev := by
    rw [startStream_frame]
    exact ⟨rfl, rfl, rfl, rfl⟩
  cases i with
  | nop => rw [exec_nop] at h; cases h; rfl
  | clrerr => rw [exec_clrerr] at h; cases h; rfl
  | clear => rw [exec_clear] at h; cases h; rfl
  | cc20Block =>
    rw [exec_cc20Block_checked] at h ⊢
    exact withKeyAndNonce_again rfl rfl rfl h
  | hcc20 =>
    rw [exec_hcc20_checked] at h ⊢
    exact withKeyAndNonce_again rfl rfl rfl h
  | ctrStart =>
    rw [exec_ctrStart_checked] at h ⊢
    obtain ⟨hkey, hnonce, hkv, hnv⟩ := started s.key (nonce12 s)
    refine withKeyAndNonce_again hkv hnv ?_ h
    simp only [accept_eq_respond, nonce12, respond_key, respond_nonce] at hkey hnonce ⊢
    rw [hkey, hnonce]
    exact startStream_again _ _ _ s
  | xccStart =>
    rw [exec_xccStart_checked] at h ⊢
    obtain ⟨hkey, hnonce, hkv, hnv⟩ := started (subkey s) (splitNonce s)
    refine withKeyAndNonce_again hkv hnv ?_ h
    simp only [accept_eq_respond, subkey, splitNonce, nonce16, respond_key, respond_nonce] at hkey hnonce ⊢
    rw [hkey, hnonce]
    exact startStream_again _ _ _ s
  | qr a b c d | dround | permute | blkXor => simp at hi

theorem memRead_again {a : Offset} {n : AccessSize} {s t : State} (h : memRead a n s = .next t) :
    memRead a n t = .next t := by
  cases hr : readTarget a n with
  | none =>
    rw [memRead_rejected hr] at h ⊢; cases h
    rw [reject_after_reject]
  | some r =>
    rw [memRead_reg hr] at h ⊢; cases h
    rw [readReg_respond]
    rfl

/-- Settles O50: the register an access reaches does not depend on the state, so both runs take the same case. -/
theorem repeatedTransactionIsIdempotent : Obligations.RepeatedTransactionIsIdempotent := by
  intro s t tr named h
  cases tr with
  | read a n => exact memRead_again h
  | write a n v =>
    rw [transact_write] at h ⊢
    cases hr : writeTarget a n with
    | none =>
      rw [memWrite_rejected hr] at h ⊢; cases h
      rw [reject_after_reject]
    | some r =>
      by_cases hc : r = .cmd
      · subst hc
        obtain ⟨rfl, rfl, -⟩ := writeTarget_some hr
        rw [memWrite_cmd hr] at h ⊢
        cases hd : decode v with
        | error e =>
          rw [runCommand_illegal hd] at h ⊢; cases h
          rw [reject_after_reject]
        | ok i =>
          rw [runCommand_legal hd] at h ⊢
          exact exec_again (named v i rfl hd) h
      · rw [memWrite_reg hr hc] at h ⊢; cases h
        rw [writeReg_again]

end Sys2Proof
end

section
/-! Encoding and decoding of command words (R70 to R76): the fields of a format-Q word, the decoder and the encoder as
each other's inverse (O1, O2), the rows of the opcode map (O3, O4), sample words (O5), and the rejection of words and of
indices that are no command (O8, O23). -/

namespace Sys2Proof

open Sys2Proof.Machine

/-! ### The word of `QR` and its fields -/

/-- An index has four bits (R73). -/
theorem testBit_index_of_ge (a : Fin 16) {j : Nat} (h : 4 ≤ j) : a.val.testBit j = false :=
  BitVec.getLsbD_of_ge (BitVec.ofFin (w := 4) a) j h

theorem getLsbD_index_shiftLeft (a : Fin 16) (n i : Nat) (hn : n + 4 ≤ 32) :
    (BitVec.ofNat 32 a <<< n).getLsbD i = (decide (n ≤ i ∧ i < n + 4) && a.val.testBit (i - n)) := by
  have beyond := testBit_index_of_ge a (j := i - n)
  simp only [BitVec.getLsbD_shiftLeft, BitVec.getLsbD_ofNat]
  grind

/-- Bit `i` of the word of `QR` lies in the opcode, in one index field, or is reserved (R72, R73). -/
theorem getLsbD_encodeQ (a b c d : Fin 16) (i : Nat) :
    (encodeQ a b c d).getLsbD i =
      if i < 8 then (0x10#8).getLsbD i else if i < 12 then a.val.testBit (i - 8)
      else if i < 16 then b.val.testBit (i - 12) else if i < 20 then c.val.testBit (i - 16)
      else if i < 24 then d.val.testBit (i - 20) else false := by
  have opc : (0x10#32).getLsbD i = (0x10#8).getLsbD i := by
    rw [show 0x10#32 = (0x10#8).setWidth 32 from rfl, BitVec.getLsbD_setWidth]
    grind
  have beyond (h : 8 ≤ i) : (0x10#8).getLsbD i = false := BitVec.getLsbD_of_ge _ _ h
  simp (disch := decide) only [encodeQ, BitVec.getLsbD_or, getLsbD_index_shiftLeft, opc]
  split_ifs <;> grind

theorem testBit_indexField (w : Word) (lo j : Nat) :
    (indexField w lo).val.testBit j = (decide (j < 4) && w.getLsbD (lo + j)) :=
  BitVec.getLsbD_extractLsb' ..

/-- A format-Q word is rebuilt from its index fields. -/
theorem encodeQ_indexFields {w : Word} (ho : opcodeOf w = 0x10#8) (hr : w.extractLsb' 24 8 = 0#8) :
    encodeQ (indexField w 8) (indexField w 12) (indexField w 16) (indexField w 20) = w := by
  refine BitVec.eq_of_getLsbD_eq fun i hi => ?_
  have opc (h : i < 8) : (0x10#8).getLsbD i = w.getLsbD i := by
    simp [← ho, opcodeOf, h]
  have reserved (h : 24 ≤ i) : false = w.getLsbD i := by
    have hbit : (w.extractLsb' 24 8).getLsbD (i - 24) = false := by rw [hr, BitVec.getLsbD_zero]
    simpa [show i - 24 < 8 by omega, h] using hbit.symm
  simp only [getLsbD_encodeQ, testBit_indexField]
  split_ifs <;> grind

section
variable (a b c d : Fin 16)

theorem opcodeOf_encodeQ : opcodeOf (encodeQ a b c d) = 0x10#8 := by
  refine BitVec.eq_of_getLsbD_eq fun i hi => ?_
  simp [opcodeOf, getLsbD_encodeQ, hi]

theorem reserved_encodeQ : (encodeQ a b c d).extractLsb' 24 8 = 0#8 := by
  refine BitVec.eq_of_getLsbD_eq fun i hi => ?_
  rw [BitVec.getLsbD_extractLsb', getLsbD_encodeQ, BitVec.getLsbD_zero]
  grind

/-- Each index field of the word of `QR` holds its index (R73). -/
theorem indexField_encodeQ :
    indexField (encodeQ a b c d) 8 = a ∧ indexField (encodeQ a b c d) 12 = b ∧
      indexField (encodeQ a b c d) 16 = c ∧ indexField (encodeQ a b c d) 20 = d := by
  refine ⟨?_, ?_, ?_, ?_⟩ <;> refine Fin.ext (Nat.eq_of_testBit_eq fun j => ?_) <;>
    rw [testBit_indexField, getLsbD_encodeQ] <;> grind [testBit_index_of_ge]

end

/-! ### What decodes -/

/-- A format-Q word decodes iff its reserved bits are 0 and its indices distinct (R72, R75, R76). -/
theorem decodeQ_eq_ok_iff {w : Word} {i : Instr} :
    decodeQ w = .ok i ↔ w.extractLsb' 24 8 = 0#8 ∧
      pairwiseDistinct (indexField w 8) (indexField w 12) (indexField w 16) (indexField w 20) = true ∧
      .qr (indexField w 8) (indexField w 12) (indexField w 16) (indexField w 20) = i := by
  unfold decodeQ
  by_cases hr : w.extractLsb' 24 8 = 0#8
  · simp only [hr, ne_eq, not_true_eq_false, if_false, true_and]
    split_ifs with hd <;> simp [hd]
  · simp [hr]

/-- A format-N word decodes iff its opcode is that of a command and its reserved bits are 0 (R71, R75, R76). -/
theorem decodeN_eq_ok_iff {w : Word} {i : Instr} :
    decodeN w = .ok i ↔ formatN (opcodeOf w) = some i ∧ w.extractLsb' 8 24 = 0#24 := by
  unfold decodeN
  cases formatN (opcodeOf w) with
  | none => simp
  | some j => by_cases hr : w.extractLsb' 8 24 = 0#24 <;> simp [hr]

theorem decode_of_opcode_qr {w : Word} (h : opcodeOf w = 0x10#8) : decode w = decodeQ w := if_pos h

theorem decode_of_opcode_ne_qr {w : Word} (h : opcodeOf w ≠ 0x10#8) : decode w = decodeN w := if_neg h

theorem wellFormed_of_formatN {opc : BitVec 8} {i : Instr} (h : formatN opc = some i) : i.wellFormed = true := by
  unfold formatN at h
  split_ifs at h <;> cases h <;> rfl

/-- Settles O1: the word of `QR` has its four indices in its fields, and each other command has one word. -/
theorem decodeOfEncode : Obligations.DecodeOfEncode := by
  intro i hi
  cases i with
  | qr a b c d =>
    obtain ⟨ha, hb, hc, hd⟩ := indexField_encodeQ a b c d
    rw [encode, decode_of_opcode_qr (opcodeOf_encodeQ a b c d), decodeQ_eq_ok_iff, ha, hb, hc, hd]
    exact ⟨reserved_encodeQ a b c d, hi, rfl⟩
  | _ => decide

/-- Settles O2: the fields of either format cover the word. -/
theorem encodeOfDecode : Obligations.EncodeOfDecode := by
  intro w i h
  by_cases ho : opcodeOf w = 0x10#8
  · rw [decode_of_opcode_qr ho, decodeQ_eq_ok_iff] at h
    obtain ⟨hr, hdistinct, rfl⟩ := h
    exact ⟨hdistinct, encodeQ_indexFields ho hr⟩
  · rw [decode_of_opcode_ne_qr ho, decodeN_eq_ok_iff] at h
    obtain ⟨hf, hr⟩ := h
    exact ⟨wellFormed_of_formatN hf, (encode_of_formatN hf).trans (word_eq_opcode hr).symm⟩

/-! ### The rows of the opcode map -/

/-- Every row's mask covers the opcode, so a word that matches the row has the opcode of its pattern (R74). -/
theorem opcodeOf_of_match {w : Word} {r : OpRow} (hr : r ∈ opcodeTable) (h : w &&& r.mask = r.pattern) :
    opcodeOf w = opcodeOf r.pattern := by
  have covered : ∀ r ∈ opcodeTable, opcodeOf r.mask = BitVec.allOnes 8 := by decide
  rw [← h, opcodeOf, opcodeOf, BitVec.extractLsb'_and, ← opcodeOf, ← opcodeOf, covered r hr, BitVec.and_allOnes]

theorem row_eq_of_opcode_eq :
    ∀ r ∈ opcodeTable, ∀ q ∈ opcodeTable, opcodeOf r.pattern = opcodeOf q.pattern → r = q := by decide

/-- Settles O4: the rows differ in their opcodes, which every mask covers. -/
theorem opcodeRowsDisjoint : Obligations.OpcodeRowsDisjoint := fun _ r q hr hq hwr hwq =>
  row_eq_of_opcode_eq r hr q hq ((opcodeOf_of_match hr hwr).symm.trans (opcodeOf_of_match hq hwq))

/-- The row of a format-N command fixes the whole word, which is that command's; `QR` has the one other row (R74). -/
theorem row_cases : ∀ r ∈ opcodeTable,
    r = opRow (.qr 0 1 2 3) ∨
      r.mask = BitVec.allOnes 32 ∧ ∃ i ∈ formatN (opcodeOf r.pattern), encode i = r.pattern := by
  decide

theorem reserved_of_match_qr {w : Word} (h : w &&& 0xFF0000FF#32 = 0x00000010#32) : w.extractLsb' 24 8 = 0#8 := by
  have hand : (w &&& 0xFF0000FF#32).extractLsb' 24 8 = 0#8 := by rw [h]; decide
  rwa [BitVec.extractLsb'_and, show (0xFF0000FF#32).extractLsb' 24 8 = BitVec.allOnes 8 by decide,
    BitVec.and_allOnes] at hand

/-- The four index fields are distinct as bit vectors iff they are as indices (R75). -/
theorem pairwiseDistinct_indexFields_iff (w : Word) :
    pairwiseDistinct (indexField w 8) (indexField w 12) (indexField w 16) (indexField w 20) = true ↔
      [w.extractLsb' 8 4, w.extractLsb' 12 4, w.extractLsb' 16 4, w.extractLsb' 20 4].Nodup := by
  rw [pairwiseDistinct_iff, ← List.nodup_map_iff fun _ _ => BitVec.eq_of_toFin_eq]
  rfl

/-- Every command's word selects the command's own row (R74). -/
theorem rowMatch : ∀ i : Instr, Laws.RowMatch.Statement i
  | .nop => Laws.RowMatch.nop
  | .clrerr => Laws.RowMatch.clrerr
  | .clear => Laws.RowMatch.clear
  | .qr a b c d => Laws.RowMatch.qr a b c d
  | .dround => Laws.RowMatch.dround
  | .permute => Laws.RowMatch.permute
  | .cc20Block => Laws.RowMatch.cc20Block
  | .hcc20 => Laws.RowMatch.hcc20
  | .ctrStart => Laws.RowMatch.ctrStart
  | .xccStart => Laws.RowMatch.xccStart
  | .blkXor => Laws.RowMatch.blkXor

theorem encode_matches_row (i : Instr) : ∃ r ∈ opcodeTable, encode i &&& r.mask = r.pattern := by
  obtain ⟨hr, hw⟩ := rowMatch i
  exact ⟨opRow i, hr, beq_iff_eq.mp hw⟩

/-- Settles O3: a decoded word is its command's, which matches its own row; of the rows only that of `QR` leaves bits of
the word open, and those are the indices. -/
theorem wordDecodesIffTableRow : Obligations.WordDecodesIffTableRow := by
  intro w
  constructor
  · rintro ⟨i, h⟩
    obtain ⟨-, rfl⟩ := encodeOfDecode w i h
    refine ⟨encode_matches_row i, fun ho => ?_⟩
    rw [decode_of_opcode_qr ho, decodeQ_eq_ok_iff] at h
    obtain ⟨-, hdistinct, -⟩ := h
    exact (pairwiseDistinct_indexFields_iff _).mp hdistinct
  · rintro ⟨⟨r, hr, hw⟩, hdistinct⟩
    obtain rfl | ⟨hmask, i, hi, hencode⟩ := row_cases r hr
    · have ho : opcodeOf w = 0x10#8 := opcodeOf_of_match hr hw
      rw [decode_of_opcode_qr ho]
      exact ⟨_, decodeQ_eq_ok_iff.mpr
        ⟨reserved_of_match_qr hw, (pairwiseDistinct_indexFields_iff w).mpr (hdistinct ho), rfl⟩⟩
    · rw [hmask, BitVec.and_allOnes, ← hencode] at hw
      rw [hw]
      exact ⟨i, decodeOfEncode i (wellFormed_of_formatN hi)⟩

/-- Settles O5: the decoder evaluated on each word. -/
theorem sampleWordsDecode : Obligations.SampleWordsDecode := by
  unfold Obligations.SampleWordsDecode
  decide

/-! ### Rejections -/

/-- Settles O8: the write reaches `CMD`, and the decoder's refusal is the rejection `E_ILLCMD`. -/
theorem illegalWordRejected : Obligations.IllegalWordRejected := by
  intro s w e h
  calc transact (.write 0x008 .four w) s
      = runCommand w s := memWrite_cmd (writeTarget_regOffset (r := .cmd) (by decide)) w s
    _ = .next (reject .illCmd s) := runCommand_illegal h s
    _ = .next (rejected 5 s) := by rw [reject_eq_rejected, errorCode]

/-- Settles O23: the meaning of `QR` has the check of R75 too. -/
theorem qrAliasedRejected : Obligations.QrAliasedRejected := by
  intro s a b c d h
  have aliased : pairwiseDistinct a b c d = false := by
    rwa [← pairwiseDistinct_iff, Bool.not_eq_true] at h
  rw [exec_qr_aliased aliased, reject_eq_rejected, errorCode]

end Sys2Proof
end

section
/-! The quarter-round in place (R92): its twelve statements done one after another, its words and its frame, that two on
disjoint indices commute (O21), and what `QR` does (O22). -/

namespace Sys2Proof.Machine

/-! ### Four words of an array -/

/-- The array with four given words at four indices. -/
def putQuad (v : Vector Word 16) (i j k l : Fin 16) (q : Quad) : Vector Word 16 :=
  (((v.set i q.a).set j q.b).set k q.c).set l q.d

theorem qrAt_eq_putQuad (v : Vector Word 16) (i j k l : Fin 16) :
    qrAt v i j k l = putQuad v i j k l (qr v[i] v[j] v[k] v[l]) := qrAt_eq v i j k l

theorem putQuad_own_words (v : Vector Word 16) (i j k l : Fin 16) :
    putQuad v i j k l ⟨v[i], v[j], v[k], v[l]⟩ = v := by
  simp [putQuad]

section
variable {i j k l : Fin 16} (h : [i, j, k, l].Nodup) (v : Vector Word 16) (q : Quad)
include h

theorem putQuad_getElem :
    (putQuad v i j k l q)[i] = q.a ∧ (putQuad v i j k l q)[j] = q.b ∧
      (putQuad v i j k l q)[k] = q.c ∧ (putQuad v i j k l q)[l] = q.d := by
  simp only [putQuad, Fin.getElem_fin, Vector.getElem_set]
  grind

/-- A store at one of the four indices replaces that word of the four. -/
theorem putQuad_set (x : Word) :
    (putQuad v i j k l q).set i x = putQuad v i j k l { q with a := x } ∧
      (putQuad v i j k l q).set j x = putQuad v i j k l { q with b := x } ∧
      (putQuad v i j k l q).set k x = putQuad v i j k l { q with c := x } ∧
      (putQuad v i j k l q).set l x = putQuad v i j k l { q with d := x } := by
  refine ⟨?_, ?_, ?_, ?_⟩ <;> ext m hm : 1 <;> simp only [putQuad, Vector.getElem_set] <;> grind

theorem qrAt_getElem_indices :
    (qrAt v i j k l)[i] = (qr v[i] v[j] v[k] v[l]).a ∧ (qrAt v i j k l)[j] = (qr v[i] v[j] v[k] v[l]).b ∧
      (qrAt v i j k l)[k] = (qr v[i] v[j] v[k] v[l]).c ∧ (qrAt v i j k l)[l] = (qr v[i] v[j] v[k] v[l]).d := by
  rw [qrAt_eq_putQuad]
  exact putQuad_getElem h v _

end

/-! ### The twelve statements in place -/

/-- The rotation of R9 is the standard one. -/
theorem rotl32_eq_rotateLeft (x : Word) {n : Nat} (h : n < 32) : rotl32 x n = x.rotateLeft n := by
  rw [BitVec.rotateLeft, Nat.mod_eq_of_lt h]
  rfl

/-- `v[p]` plus `v[q]`, in place. -/
def addTo (v : Vector Word 16) (p q : Fin 16) : Vector Word 16 := v.set p (v[p] + v[q])

/-- `v[p]` XOR `v[q]`, rotated left by `n`, in place. -/
def xorRotateTo (v : Vector Word 16) (p q : Fin 16) (n : Nat) : Vector Word 16 :=
  v.set p ((v[p] ^^^ v[q]).rotateLeft n)

/-- The statements of R90 in their order, each done in place at the index of its word. -/
def qrStatements (v : Vector Word 16) (i j k l : Fin 16) : Vector Word 16 :=
  let v := xorRotateTo (addTo v i j) l i 16
  let v := xorRotateTo (addTo v k l) j k 12
  let v := xorRotateTo (addTo v i j) l i 8
  xorRotateTo (addTo v k l) j k 7

/-- Each statement in place does to the four words what it does to the four variables of R90. -/
theorem qrStatements_putQuad {i j k l : Fin 16} (h : [i, j, k, l].Nodup) (v : Vector Word 16) (a b c d : Word) :
    qrStatements (putQuad v i j k l ⟨a, b, c, d⟩) i j k l = putQuad v i j k l (qr a b c d) := by
  simp (disch := decide) only [qrStatements, addTo, xorRotateTo, putQuad_getElem h, putQuad_set h, qr, add32, xor32,
    rotl32_eq_rotateLeft]

theorem qrStatements_eq_qrAt {i j k l : Fin 16} (h : [i, j, k, l].Nodup) (v : Vector Word 16) :
    qrStatements v i j k l = qrAt v i j k l := by
  have hput := qrStatements_putQuad h v v[i] v[j] v[k] v[l]
  rwa [putQuad_own_words, ← qrAt_eq_putQuad] at hput

/-! ### What a quarter-round leaves, and disjoint ones -/

section
variable {i j k l i' j' k' l' : Fin 16} (v : Vector Word 16)

theorem qrAt_getElem_of_notMem {m : Fin 16} (h : m ∉ [i, j, k, l]) : (qrAt v i j k l)[m] = v[m] := by
  simp only [List.mem_cons, List.not_mem_nil, or_false, not_or] at h
  simp only [qrAt_getElem, h, if_false]

/-- The words of a quarter-round depend on the words at its indices alone (R92). -/
theorem qrAt_getElem_congr {u v : Vector Word 16} (huv : ∀ m ∈ [i, j, k, l], u[m] = v[m]) {m : Fin 16}
    (hm : m ∈ [i, j, k, l]) : (qrAt u i j k l)[m] = (qrAt v i j k l)[m] := by
  rw [qrAt_getElem, qrAt_getElem, huv i (by simp), huv j (by simp), huv k (by simp), huv l (by simp), huv m hm]

/-- At an index of the first group, a quarter-round on the second is not seen, be it done after or before. -/
theorem qrAt_qrAt_getElem_of_mem (h : [i, j, k, l].Disjoint [i', j', k', l']) {m : Fin 16} (hm : m ∈ [i, j, k, l]) :
    (qrAt (qrAt v i j k l) i' j' k' l')[m] = (qrAt (qrAt v i' j' k' l') i j k l)[m] :=
  calc (qrAt (qrAt v i j k l) i' j' k' l')[m]
      = (qrAt v i j k l)[m] := qrAt_getElem_of_notMem _ (h hm)
    _ = (qrAt (qrAt v i' j' k' l') i j k l)[m] :=
      qrAt_getElem_congr (fun _ hn => (qrAt_getElem_of_notMem v (h hn)).symm) hm

theorem qrAt_comm (h : [i, j, k, l].Disjoint [i', j', k', l']) :
    qrAt (qrAt v i j k l) i' j' k' l' = qrAt (qrAt v i' j' k' l') i j k l := by
  have pointwise (m : Fin 16) :
      (qrAt (qrAt v i j k l) i' j' k' l')[m] = (qrAt (qrAt v i' j' k' l') i j k l)[m] := by
    by_cases hm : m ∈ [i, j, k, l]
    · exact qrAt_qrAt_getElem_of_mem v h hm
    by_cases hm' : m ∈ [i', j', k', l']
    · exact (qrAt_qrAt_getElem_of_mem v h.symm hm').symm
    · simp only [qrAt_getElem_of_notMem _ hm, qrAt_getElem_of_notMem _ hm']
  exact Vector.ext fun m hm => pointwise ⟨m, hm⟩

end

/-! ### The statements -/

/-- Settles O21: the four words and the frame by element, the statements in place on the four words, and commutation
because neither group sees the other. -/
theorem quarterRoundInPlace : Obligations.QuarterRoundInPlace := by
  constructor
  · intro v i j k l h
    obtain ⟨ha, hb, hc, hd⟩ := qrAt_getElem_indices h v
    exact ⟨ha, hb, hc, hd, fun _ hm => qrAt_getElem_of_notMem v hm, qrStatements_eq_qrAt h v⟩
  · intro v i j k l i' j' k' l' h
    exact qrAt_comm v (List.disjoint_of_nodup_append (l₁ := [i, j, k, l]) h)

/-- Settles O22: with distinct indices the command stores the quarter-round in place and answers. -/
theorem qrResult : Obligations.QrResult := by
  intro s a b c d h
  exact ⟨_, exec_qr ((pairwiseDistinct_iff a b c d).mpr h) s, qrAt_getElem_indices h s.x,
    fun _ hm => qrAt_getElem_of_notMem s.x hm, rfl⟩

end Sys2Proof.Machine
end

section
/-! The double round and the permutation (R100 to R103): quarter-rounds on disjoint groups may be done in any order or at
once (O25), and what `DROUND` and `PERMUTE` do (O24, O26, O27). -/

namespace Sys2Proof.Machine

/-! ### Quarter-rounds on a list of groups -/

/-- The four indices of a group. -/
def indices (g : Group) : List (Fin 16) := [g.1, g.2.1, g.2.2.1, g.2.2.2]

/-- No index is in two groups of the list, or twice in one: what R100 says of each of its two stages. -/
def IndicesDistinct (gs : List Group) : Prop := (gs.flatMap indices).Nodup

/-- The quarter-round in place on a group. -/
def qrOn (v : Vector Word 16) (g : Group) : Vector Word 16 := qrAt v g.1 g.2.1 g.2.2.1 g.2.2.2

theorem applyGroups_cons (g : Group) (gs : List Group) (v : Vector Word 16) :
    applyGroups (g :: gs) v = applyGroups gs (qrOn v g) := rfl

theorem applyGroups_append (gs hs : List Group) (v : Vector Word 16) :
    applyGroups (gs ++ hs) v = applyGroups hs (applyGroups gs v) := List.foldl_append

theorem indicesDistinct_cons_iff {g : Group} {gs : List Group} :
    IndicesDistinct (g :: gs) ↔
      (indices g).Nodup ∧ IndicesDistinct gs ∧ ∀ m ∈ indices g, ∀ g' ∈ gs, m ∉ indices g' := by
  simp [IndicesDistinct, List.nodup_append', List.Disjoint]

theorem indicesDistinct_of_perm {gs hs : List Group} (h : IndicesDistinct gs) (hp : gs.Perm hs) : IndicesDistinct hs :=
  (hp.flatMap_right indices).nodup_iff.mp h

/-- A word at an index of none of the groups keeps its value. -/
theorem applyGroups_getElem_of_notMem {gs : List Group} {m : Fin 16} (h : ∀ g ∈ gs, m ∉ indices g)
    (v : Vector Word 16) : (applyGroups gs v)[m] = v[m] := by
  induction gs generalizing v with
  | nil => rfl
  | cons g gs ih =>
    obtain ⟨hg, hgs⟩ := List.forall_mem_cons.mp h
    rw [applyGroups_cons, ih hgs]
    exact qrAt_getElem_of_notMem v hg

/-- Any order gives the same result, for any two of the quarter-rounds commute (R92). -/
theorem applyGroups_perm {gs hs : List Group} (h : IndicesDistinct gs) (hp : gs.Perm hs) (v : Vector Word 16) :
    applyGroups gs v = applyGroups hs v := by
  obtain ⟨-, hdisjoint⟩ := List.nodup_flatMap.mp h
  have hsymm : Std.Symm (Function.onFun List.Disjoint indices) := ⟨fun _ _ hd => hd.symm⟩
  refine hp.foldl_eq' (fun g hg g' hg' u => ?_) v
  by_cases heq : g = g'
  · rw [heq]
  · exact qrAt_comm u (hdisjoint.forall hg hg' heq)

/-- Each group's words are those of its own quarter-round on the array before the stage: do that group first, and no
other touches its words. -/
theorem applyGroups_getElem_of_mem {gs : List Group} (h : IndicesDistinct gs) {g : Group} (hg : g ∈ gs) {m : Fin 16}
    (hm : m ∈ indices g) (v : Vector Word 16) : (applyGroups gs v)[m] = (qrOn v g)[m] := by
  have hp : gs.Perm (g :: gs.erase g) := List.perm_cons_erase hg
  obtain ⟨-, -, hdisjoint⟩ := indicesDistinct_cons_iff.mp (indicesDistinct_of_perm h hp)
  rw [applyGroups_perm h hp, applyGroups_cons, applyGroups_getElem_of_notMem (hdisjoint m hm)]

/-! ### The two stages of the double round -/

theorem columnGroups_perm : (columnGroups.flatMap indices).Perm (List.finRange 16) := by decide

theorem diagonalGroups_perm : (diagonalGroups.flatMap indices).Perm (List.finRange 16) := by decide

theorem indicesDistinct_columnGroups : IndicesDistinct columnGroups :=
  columnGroups_perm.nodup_iff.mpr (List.nodup_finRange 16)

theorem indicesDistinct_diagonalGroups : IndicesDistinct diagonalGroups :=
  diagonalGroups_perm.nodup_iff.mpr (List.nodup_finRange 16)

theorem dround_eq_applyGroups (v : Vector Word 16) :
    dround v = applyGroups diagonalGroups (applyGroups columnGroups v) := rfl

/-- Settles O25: the groups of a stage share no index, so its quarter-rounds commute and none sees another's words. -/
theorem doubleRoundOrderFree : Obligations.DoubleRoundOrderFree := by
  refine ⟨columnGroups_perm, diagonalGroups_perm, ?_, ?_⟩
  · intro v cs ds hcs hds
    rw [dround_eq_applyGroups, applyGroups_perm indicesDistinct_columnGroups hcs.symm,
      applyGroups_perm indicesDistinct_diagonalGroups hds.symm]
  · intro v gs hgs g hg
    have hdistinct : IndicesDistinct gs := by
      obtain rfl | rfl := hgs
      · exact indicesDistinct_columnGroups
      · exact indicesDistinct_diagonalGroups
    have hg_distinct : (indices g).Nodup := (List.nodup_flatMap.mp hdistinct).1 g hg
    have hword (m : Fin 16) (hm : m ∈ indices g) := applyGroups_getElem_of_mem hdistinct hg hm v
    obtain ⟨ha, hb, hc, hd⟩ := qrAt_getElem_indices hg_distinct v
    exact ⟨(hword g.1 (by simp [indices])).trans ha, (hword g.2.1 (by simp [indices])).trans hb,
      (hword g.2.2.1 (by simp [indices])).trans hc, (hword g.2.2.2 (by simp [indices])).trans hd⟩

/-! ### `DROUND` and `PERMUTE` -/

/-- Settles O24: the double round is its eight quarter-rounds in the order of R100. -/
theorem droundResult : Obligations.DroundResult := by
  intro s
  rw [exec_dround, dround_eq_applyGroups, ← applyGroups_append]
  rfl

/-- Settles O26: the permutation is the iterated double round. -/
theorem permuteResult : Obligations.PermuteResult := by
  intro s
  rw [exec_permute, permute_eq_iterate]
  rfl

/-- A positive number of `DROUND` commands in a row leaves the iterated double round in `X`, and the one response. -/
theorem iterate_exec_dround {f : Result → Result} (hf : ∀ t, f (.next t) = exec .dround t) (n : Nat) (s : State) :
    f^[n + 1] (.next s) = .next (respond ⟨false, 0⟩ (setX (dround^[n + 1] s.x) s)) := by
  induction n with
  | zero => exact (hf s).trans (exec_dround s)
  | succ n ih =>
    rw [Function.iterate_succ_apply', ih, hf, exec_dround, Function.iterate_succ_apply' dround (n + 1)]
    rfl

/-- Settles O27: both leave ten double rounds of `X`. -/
theorem tenDroundsArePermute : Obligations.TenDroundsArePermute := by
  intro s
  rw [exec_permute, permute_eq_iterate]
  exact iterate_exec_dround (fun _ => rfl) 9 s

end Sys2Proof.Machine
end

section
/-! The ChaCha20 block function (R110 to R112): its initial state word by word, its output words, and what `CC20_BLOCK`
does with them (O28). -/

namespace Sys2Proof.Machine

/-- The sixteen words of R111, the constants of R110 written out. -/
theorem cc20Init_eq (k : Vector Word 8) (c : Word) (n : Vector Word 3) :
    cc20Init k c n = (#v[0x61707865, 0x3320646E, 0x79622D32, 0x6B206574,
      k[0], k[1], k[2], k[3], k[4], k[5], k[6], k[7], c, n[0], n[1], n[2]] : Vector Word 16) := rfl

/-- Output word `i`: ten double rounds of the initial state added to it (R101, R112). -/
theorem cc20Block_getElem_iterate (k : Vector Word 8) (c : Word) (n : Vector Word 3) (i : Fin 16) :
    (cc20Block k c n)[i] = (cc20Init k c n)[i] + (dround^[10] (cc20Init k c n))[i] := by
  rw [cc20Block_getElem, permute_eq_iterate]

/-- Settles O28: with its checks passed the command stores the block of `KEY`, `ICTR` and `NONCE[0..2]` and answers. -/
theorem cc20BlockResult : Obligations.Cc20BlockResult := by
  intro s hkeyv hnoncev
  have hkey : keyComplete s = true := (keyComplete_iff s).mpr hkeyv
  have hnonce : nonceComplete 3 s = true := (nonceComplete_iff 3 s).mpr hnoncev
  have hwords (i : Fin 16) := cc20Block_getElem_iterate s.key s.ictr (nonce12 s) i
  rw [cc20Init_eq] at hwords
  exact ⟨_, exec_cc20Block hkey hnonce, hwords, rfl⟩

end Sys2Proof.Machine
end

section
/-! HChaCha20 (R120 to R122): its initial state word by word, the words it keeps of the permuted state, what `HCC20` does
with them (O29), and how it relates to the ChaCha20 block (O30). -/

namespace Sys2Proof.Machine

/-- The sixteen words of R120, the constants of R110 written out. -/
theorem hcc20Init_eq (k : Vector Word 8) (n : Vector Word 4) :
    hcc20Init k n = (#v[0x61707865, 0x3320646E, 0x79622D32, 0x6B206574,
      k[0], k[1], k[2], k[3], k[4], k[5], k[6], k[7], n[0], n[1], n[2], n[3]] : Vector Word 16) := rfl

/-- The nonce's first word stands where the block function has its counter (R122). -/
theorem hcc20Init_eq_cc20Init (k : Vector Word 8) (n : Vector Word 4) :
    hcc20Init k n = cc20Init k n[0] #v[n[1], n[2], n[3]] := rfl

/-- The first four words kept are words 0..3, the other four words 12..15 (R120). -/
theorem outerRows_getElem (w : Vector Word 16) (i : Fin 4) :
    (outerRows w)[i.val] = w[i.val] ∧ (outerRows w)[4 + i.val] = w[12 + i.val] := by
  fin_cases i <;> exact ⟨rfl, rfl⟩

/-- `OUT` after `HCC20`: the subkey in the first eight words, zero in the last eight (R121). -/
theorem padSubkey_getElem (z : Vector Word 8) (i : Fin 8) :
    (padSubkey z)[i.val] = z[i.val] ∧ (padSubkey z)[8 + i.val] = 0 := by
  fin_cases i <;> exact ⟨rfl, rfl⟩

/-- The subkey words: words 0..3 and 12..15 of ten double rounds of the initial state (R101, R120). -/
theorem hchacha20_getElem (k : Vector Word 8) (n : Vector Word 4) (i : Fin 4) :
    (hchacha20 k n)[i.val] = (dround^[10] (hcc20Init k n))[i.val] ∧
      (hchacha20 k n)[4 + i.val] = (dround^[10] (hcc20Init k n))[12 + i.val] := by
  simp only [hchacha20_eq, permute_eq_iterate, outerRows_getElem, and_self]

/-- An output word of the block less the initial state's word is the permuted state's word (R112, R122). -/
theorem cc20Block_getElem_sub_cc20Init (k : Vector Word 8) (c : Word) (n : Vector Word 3) (i : Fin 16) :
    (cc20Block k c n)[i] - (cc20Init k c n)[i] = (dround^[10] (cc20Init k c n))[i] := by
  rw [cc20Block_getElem_iterate, add_sub_cancel_left]

/-- Settles O29: with its checks passed the command stores the padded subkey of `KEY` and `NONCE[0..3]` and answers. -/
theorem hcc20Result : Obligations.Hcc20Result := by
  intro s hkeyv hnoncev
  have hkey : keyComplete s = true := (keyComplete_iff s).mpr hkeyv
  have hnonce : nonceComplete 4 s = true := (nonceComplete_iff 4 s).mpr hnoncev
  have hpad := padSubkey_getElem (hchacha20 s.key (nonce16 s))
  refine ⟨_, exec_hcc20 hkey hnonce, ⟨fun i => ?_, fun i => (hpad i).2⟩, rfl⟩
  obtain ⟨hlow, hhigh⟩ := hchacha20_getElem s.key (nonce16 s) i
  rw [hcc20Init_eq] at hlow hhigh
  exact ⟨(hpad ⟨i, by omega⟩).1.trans hlow, (hpad ⟨4 + i, by omega⟩).1.trans hhigh⟩

/-- Settles O30: both permute the same initial state, and the subtraction takes the feed-forward away. -/
theorem hchachaIsBlockWithoutFeedForward : Obligations.HchachaIsBlockWithoutFeedForward := by
  intro k n Z O S i
  obtain ⟨hlow, hhigh⟩ := hchacha20_getElem k n i
  have hword (j : Fin 16) := cc20Block_getElem_sub_cc20Init k n[0] #v[n[1], n[2], n[3]] j
  rw [hcc20Init_eq_cc20Init] at hlow hhigh
  exact ⟨hlow.trans (hword ⟨i, by omega⟩).symm, hhigh.trans (hword ⟨12 + i, by omega⟩).symm⟩

end Sys2Proof.Machine
end

section
/-! The byte mask of R134: byte by byte, as a number, and in its closed forms (O35). -/

namespace Sys2Proof.Machine

/-! ### Bytes of combined words -/

theorem byteK_and (k : Nat) (v w : Word) : byteK k (v &&& w) = byteK k v &&& byteK k w := by
  simp only [byteK, BitVec.ushiftRight_and_distrib, BitVec.setWidth_and]

theorem byteK_xor (k : Nat) (v w : Word) : byteK k (v ^^^ w) = byteK k v ^^^ byteK k w := by
  simp only [byteK, BitVec.ushiftRight_xor_distrib, BitVec.setWidth_xor]

/-! ### The byte mask -/

/-- The mask depends only on how many of the word's four lanes lie below `n`. -/
theorem bytemask_eq_bytemask_zero (n j : Nat) : bytemask n j = bytemask (min 4 (n - 4 * j)) 0 := by
  have hlane (k : Nat) (hk : k < 4) : laneMask n j k = laneMask (min 4 (n - 4 * j)) 0 k := by
    have hiff : 4 * j + k < n ↔ 4 * 0 + k < min 4 (n - 4 * j) := by omega
    simp only [laneMask, hiff]
  simp only [bytemask, hlane 0 (by omega), hlane 1 (by omega), hlane 2 (by omega), hlane 3 (by omega)]

/-- The masks of a word with `m` of its lanes kept, byte by byte and as a number. -/
theorem bytemask_zero_lanes : ∀ m < 5,
    (∀ k : Fin 4, byteK k (bytemask m 0) = if k.val < m then 0xFF else 0) ∧
      (bytemask m 0).toNat = 2 ^ (8 * m) - 1 := by
  decide

/-- Byte `k` of the mask (R134). -/
theorem byteK_bytemask (n j : Nat) (k : Fin 4) : byteK k (bytemask n j) = if 4 * j + k < n then 0xFF else 0 := by
  have hiff : k.val < min 4 (n - 4 * j) ↔ 4 * j + k < n := by omega
  rw [bytemask_eq_bytemask_zero, (bytemask_zero_lanes _ (by omega)).1 k]
  simp only [hiff]

/-- The mask as a number: the low `min(4, n - 4j)` bytes all ones (R134). -/
theorem bytemask_toNat (n j : Nat) : (bytemask n j).toNat = 2 ^ (8 * min 4 (n - 4 * j)) - 1 := by
  rw [bytemask_eq_bytemask_zero, (bytemask_zero_lanes _ (by omega)).2]

/-- One lane joined to a mask, as R134 writes the OR. -/
theorem or_laneMask (m : Word) (n j k : Nat) :
    m ||| laneMask n j k = if 4 * j + k < n then m ||| (0xFF#32 <<< (8 * k)) else m := by
  unfold laneMask
  split
  · rfl
  · exact BitVec.or_zero

/-- Settles O35: the lanes byte by byte, their OR, and the value as a number in each of the three ranges of `n`. -/
theorem bytemaskForms : Obligations.BytemaskForms := by
  intro n j _ _ _
  have hvalue := bytemask_toNat n j
  refine ⟨byteK_bytemask n j, ?or, fun hfull => ?full, fun hlow hhigh => ?part, fun hnone => ?none⟩
  case or =>
    simp only [← or_laneMask]
    simp [List.range_succ, bytemask]
  case full =>
    rw [show min 4 (n - 4 * j) = 4 by omega] at hvalue
    exact BitVec.eq_of_toNat_eq hvalue
  case part => rwa [show min 4 (n - 4 * j) = n - 4 * j by omega] at hvalue
  case none =>
    rw [show min 4 (n - 4 * j) = 0 by omega] at hvalue
    exact BitVec.eq_of_toNat_eq hvalue

end Sys2Proof.Machine
end

section
/-! What `CTR_START` and `BLK_XOR` do (R132, R133, R135): an accepted start (O31), a block of a live stream (O33), a
block with no live stream (O34). -/

namespace Sys2Proof.Machine

/-- Byte `k` of word `j` of the XORed block (R133, R134). -/
theorem byteK_xorBlock (din ks : Vector Word 16) (n : Nat) (j : Fin 16) (k : Fin 4) :
    byteK k (xorBlock din ks n)[j] = if 4 * j.val + k.val < n then byteK k din[j] ^^^ byteK k ks[j] else 0 := by
  rw [xorBlock_getElem, byteK_and, byteK_xor, byteK_bytemask]
  split
  · exact BitVec.and_allOnes
  · exact BitVec.and_zero

/-- Settles O34: the idle case of the command, whose rejection is the one of R181 with the code of `E_PHASE`. -/
theorem blkXorRejectedWhenIdle : Obligations.BlkXorRejectedWhenIdle := fun _ h => exec_blkXor_idle h

/-- Settles O31: the checks pass, and a start leaves what `startStream_eq` says. -/
theorem ctrStartResult : Obligations.CtrStartResult := by
  intro s hkeyv hnoncev
  have hkey : keyComplete s = true := (keyComplete_iff s).mpr hkeyv
  have hnonce : nonceComplete 3 s = true := (nonceComplete_iff 3 s).mpr hnoncev
  rw [exec_ctrStart hkey hnonce, startStream_eq]
  split <;> rfl

/-- Settles O33: the updates of a block, with the XORed block read byte by byte and `REM` as a number. -/
theorem blkXorResult : Obligations.BlkXorResult := by
  intro s hp
  have hexec := exec_blkXor_updates hp
  refine ⟨_, hexec, ⟨byteK_xorBlock _ _ _, rfl, rem_after_block s, ?_⟩, exec_blkXor_frame hp hexec⟩
  simp only [accept_eq_respond, respond_phase, respond_akey, respond_anonce, setContext_phase, setContext_akey,
    setContext_anonce]
  by_cases hlast : s.rem.toNat ≤ 64
  · simp only [hlast, if_true, true_and]
    exact ⟨rfl, rfl⟩
  · simp only [hlast, if_false, and_self]

end Sys2Proof.Machine
end

section
/-! The keystream and the counter-mode engine (R130, R131): lengths, the split of the keystream after whole blocks
(O55), and that `ctr_xor` and `xchacha20` are their own inverse (O54). -/

namespace Sys2Proof.Machine

/-! ### The keystream -/

theorem le_blockCount (l : Nat) : l ≤ 64 * blockCount l := by
  unfold blockCount
  omega

theorem blockCount_whole_add (m l : Nat) : blockCount (64 * m + l) = m + blockCount l := by
  unfold blockCount
  omega

theorem blockCount_whole (m : Nat) : blockCount (64 * m) = m := blockCount_whole_add m 0

/-- Block `m + i` from counter `c` is block `i` from counter `c + m`, modulo 2^32 (R130). -/
theorem ksBlock_add (k : Vector Word 8) (n : Vector Word 3) (c : Word) (m i : Nat) :
    ksBlock k n c (m + i) = ksBlock k n (c + BitVec.ofNat 32 m) i := by
  simp only [ksBlock, add32, BitVec.ofNat_add, BitVec.add_assoc]

@[simp] theorem ksBlock_length (k : Vector Word 8) (n : Vector Word 3) (c : Word) (i : Nat) :
    (ksBlock k n c i).length = 64 := by
  simp [ksBlock]

/-- The keystream is as long as its blocks (R130). -/
theorem keystream_length (k : Vector Word 8) (n : Vector Word 3) (c : Word) (l : Nat) :
    (keystream k n c l).length = 64 * blockCount l := by
  simp [keystream, List.length_flatMap, mul_comm]

theorem le_keystream_length (k : Vector Word 8) (n : Vector Word 3) (c : Word) (l : Nat) :
    l ≤ (keystream k n c l).length := by
  rw [keystream_length]
  exact le_blockCount l

/-- After `m` whole blocks the keystream goes on as one from the counter advanced by `m` (R138). -/
theorem keystream_append (k : Vector Word 8) (n : Vector Word 3) (c : Word) (m l : Nat) :
    keystream k n c (64 * m + l) = keystream k n c (64 * m) ++ keystream k n (c + BitVec.ofNat 32 m) l := by
  have hshift : (fun i => ksBlock k n c (m + i)) = ksBlock k n (c + BitVec.ofNat 32 m) :=
    funext (ksBlock_add k n c m)
  rw [keystream, keystream, keystream, blockCount_whole_add, blockCount_whole, List.range_add, List.flatMap_append,
    List.flatMap_map, hshift]

/-! ### Data XOR keystream -/

@[simp] theorem ctrXor_length (k : Vector Word 8) (n : Vector Word 3) (c : Word) (d : List Byte) :
    (ctrXor k n c d).length = d.length := by
  rw [ctrXor, List.length_zipWith]
  exact Nat.min_eq_left (le_keystream_length k n c d.length)

/-- XOR with a long enough list of bytes, done twice, gives the data back. -/
theorem zipWith_xor_zipWith_xor {d ks : List Byte} (h : d.length ≤ ks.length) :
    List.zipWith (fun a b => a ^^^ b) (List.zipWith (fun a b => a ^^^ b) d ks) ks = d := by
  apply List.ext_getElem
  · simpa using h
  · intro i _ _
    simp

/-- The keystream depends on the data's length alone, so the second pass takes away what the first put in (R131). -/
theorem ctrXor_ctrXor (k : Vector Word 8) (n : Vector Word 3) (c : Word) (d : List Byte) :
    ctrXor k n c (ctrXor k n c d) = d := by
  conv_lhs => rw [ctrXor, ctrXor_length, ctrXor]
  exact zipWith_xor_zipWith_xor (le_keystream_length k n c d.length)

/-- Settles O54: `xchacha20` is `ctr_xor` with the subkey and the inner nonce (R150). -/
theorem counterModeSelfInverse : Obligations.CounterModeSelfInverse :=
  ⟨fun k n c d => ⟨ctrXor_length k n c d, ctrXor_ctrXor k n c d⟩,
    fun k n c d => ⟨ctrXor_length (hchacha20 k (hchachaNonce n)) (innerNonce n) c d, ctrXor_ctrXor _ _ c d⟩⟩

/-- Settles O55: the keystream splits where the data does. -/
theorem keystreamContinuity : Obligations.KeystreamContinuity := by
  intro k n c m d e hd
  have hwhole : d.length = (keystream k n c (64 * m)).length := by
    rw [keystream_length, blockCount_whole, hd]
  rw [ctrXor, List.length_append, hd, keystream_append, List.zipWith_append hwhole, ctrXor, ctrXor, hd]

end Sys2Proof.Machine
end

section
/-! Scripts of the host (R78): what one accepted line gives, and scripts one after the other, of stores, of reads. -/

namespace Sys2Proof.Machine

theorem expectOk_of_transact {tr : Transaction} {s t : State} {v : Word} (h : transact tr s = .next t)
    (hrsp : t.rsp = some ⟨false, v⟩) : expectOk tr s = some (v, t) := by
  simp [expectOk, h, hrsp]

theorem expectOk_wr {r : Reg} (hr : accessOf r ≠ .readOnly) (hc : r ≠ .cmd) (v : Word) (s : State) :
    expectOk (wr r v) s = some (0, respond ⟨false, 0⟩ (writeReg r v s)) :=
  expectOk_of_transact (transact_write_reg rfl hr hc v s) rfl

theorem expectOk_rd {r : Reg} (hr : accessOf r ≠ .writeOnly) (s : State) :
    expectOk (rd r) s = some (readReg r s, respond ⟨false, readReg r s⟩ s) :=
  expectOk_of_transact (transact_read_reg rfl hr s) rfl

theorem expectOk_cmd {i : Instr} {s t : State} {v : Word} (hi : i.wellFormed = true) (h : exec i s = .next t)
    (hrsp : t.rsp = some ⟨false, v⟩) : expectOk (cmd i) s = some (v, t) :=
  expectOk_of_transact ((transact_commandWrite (decodeOfEncode i hi) s).trans h) hrsp

theorem runScript_cons (tr : Transaction) (trs : List Transaction) (s : State) :
    runScript (tr :: trs) s =
      (expectOk tr s).bind fun p => (runScript trs p.2).map fun q => (p.1 :: q.1, q.2) := by
  rw [runScript]
  cases expectOk tr s with
  | none => rfl
  | some p => cases h : runScript trs p.2 <;> simp [h]

/-- Two scripts one after the other: the second starts where the first ends. -/
theorem runScript_append (as bs : List Transaction) (s : State) :
    runScript (as ++ bs) s =
      (runScript as s).bind fun p => (runScript bs p.2).map fun q => (p.1 ++ q.1, q.2) := by
  induction as generalizing s with
  | nil => simp [runScript]
  | cons a as ih =>
    simp only [List.cons_append, runScript_cons, ih]
    cases expectOk a s with
    | none => rfl
    | some p => cases h : runScript as p.2 <;> simp [h, Function.comp_def]

/-- One accepted store of a script. -/
def store (s : State) (p : Reg × Word) : State := respond ⟨false, 0⟩ (writeReg p.1 p.2 s)

/-- A script of stores into writable registers: each is accepted, in order. -/
theorem runScript_writes {ps : List (Reg × Word)} (h : ∀ p ∈ ps, accessOf p.1 ≠ .readOnly ∧ p.1 ≠ .cmd)
    (s : State) : runScript (ps.map fun p => wr p.1 p.2) s = some (ps.map fun _ => 0, ps.foldl store s) := by
  induction ps generalizing s with
  | nil => rfl
  | cons p ps ih =>
    obtain ⟨⟨hr, hc⟩, hps⟩ := List.forall_mem_cons.mp h
    simp [runScript_cons, expectOk_wr hr hc, ih hps, store]

/-- A script of reads gives the registers' values and changes the response port only. -/
theorem runScript_reads {rs : List Reg} (h : ∀ r ∈ rs, accessOf r ≠ .writeOnly) (s : State) :
    ∃ p, runScript (rs.map rd) s = some (rs.map (readReg · s), { s with rsp := p }) := by
  induction rs generalizing s with
  | nil => exact ⟨s.rsp, rfl⟩
  | cons r rs ih =>
    obtain ⟨hr, hrs⟩ := List.forall_mem_cons.mp h
    obtain ⟨p, hp⟩ := ih hrs (respond ⟨false, readReg r s⟩ s)
    refine ⟨p, ?_⟩
    simp [runScript_cons, expectOk_rd hr, hp, readReg_respond]

end Sys2Proof.Machine
end

section
/-! A block as the host loads and reads it (R63, R79): its bytes in the words of `DIN` and `DOUT`, and `ctr_xor` of at
most one block. -/

namespace Sys2Proof.Machine

/-- Byte `k` of word `j`, at every position of the byte sequence (R10). -/
theorem bytesLe_getElem? (ws : List Word) (j k : Nat) (hk : k < 4) :
    (bytesLe ws)[4 * j + k]? = ws[j]?.map (byteK k) := by
  induction ws generalizing j with
  | nil => simp
  | cons w ws ih =>
    cases j with
    | zero => interval_cases k <;> rfl
    | succ j =>
      rw [bytesLe_cons, List.getElem?_append_right (by simp; omega), List.getElem?_cons_succ, ← ih]
      congr 1
      simp
      omega

/-- Byte `k` of word `j` of a byte sequence (R10, R79). -/
theorem byteK_wordAt (bytes : List Byte) (j : Nat) (k : Fin 4) :
    byteK k (wordAt bytes j) = bytes.getD (4 * j + k) 0 := by
  obtain ⟨h0, h1, h2, h3⟩ := byteK_le32 (bytes.getD (4 * j) 0) (bytes.getD (4 * j + 1) 0)
    (bytes.getD (4 * j + 2) 0) (bytes.getD (4 * j + 3) 0)
  fin_cases k
  · exact h0
  · exact h1
  · exact h2
  · exact h3

/-- Word `j` is among the words of a block of `n` bytes, at its own place, where its first byte lies below `n` (R63). -/
theorem blockWords_getElem? {n : Nat} {j : Fin 16} (h : 4 * j.val < n) : (blockWords n)[j.val]? = some j := by
  rw [blockWords, List.getElem?_take_of_lt (by omega)]
  simp

theorem mem_blockWords {n : Nat} {j : Fin 16} (h : 4 * j.val < n) : j ∈ blockWords n :=
  List.mem_of_getElem? (blockWords_getElem? h)

/-- A position below 64 as a word of the block and a byte of the word. -/
theorem exists_word_byte {p : Nat} (h : p < 64) : ∃ (j : Fin 16) (k : Fin 4), p = 4 * j.val + k.val :=
  ⟨⟨p / 4, by omega⟩, ⟨p % 4, by omega⟩, by simp only; omega⟩

/-- Words whose bytes below the block's length are data XOR those of `ks` are read back as the block XOR the bytes of
`ks` (R63, R133). -/
theorem bytesLe_blockWords_eq_zipWith {block : List Byte} {f : Fin 16 → Word} {ks : Vector Word 16}
    (hlen : block.length ≤ 64) (hf : ∀ (j : Fin 16) (k : Fin 4), 4 * j.val + k.val < block.length →
      byteK k (f j) = byteK k (wordAt block j) ^^^ byteK k ks[j]) :
    (bytesLe ((blockWords block.length).map f)).take block.length =
      List.zipWith (fun d s => d ^^^ s) block (bytesLe ks.toList) := by
  apply List.ext_getElem?
  intro p
  by_cases hp : p < block.length
  · obtain ⟨j, k, rfl⟩ := exists_word_byte (hp.trans_le hlen)
    have hword : (blockWords block.length)[j.val]? = some j := blockWords_getElem? (by omega)
    rw [List.getElem?_take_of_lt hp, bytesLe_getElem? _ _ _ k.isLt, List.getElem?_map, hword]
    simp [List.getElem?_zipWith, bytesLe_getElem? _ _ _ k.isLt, hf j k hp, byteK_wordAt, hp]
  · simp [hp]

/-- `ctr_xor` of at most one block (R130, R131). -/
theorem ctrXor_of_length_le {block : List Byte} (h : block.length ≤ 64) (k : Vector Word 8) (n : Vector Word 3)
    (c : Word) :
    ctrXor k n c block = List.zipWith (fun d s => d ^^^ s) block (bytesLe (cc20Block k c n).toList) := by
  cases block with
  | nil => rfl
  | cons b bs =>
    have hcount : blockCount (b :: bs).length = 1 := by
      rw [List.length_cons] at h ⊢
      unfold blockCount
      omega
    rw [ctrXor, keystream, hcount]
    simp [ksBlock, add32, List.range_succ]

end Sys2Proof.Machine
end

section
/-! A stream driven by the host (R136, R205): one block of it, then all of them, give `ctr_xor` of the data (O56). -/

namespace Sys2Proof.Machine

/-! ### One block of a stream -/

/-- Stores into `DIN` write the named words, and change nothing else but the response. -/
theorem foldl_store_din (js : List (Fin 16)) (f : Fin 16 → Word) (s : State) :
    ∃ din p, (js.map fun j => (Reg.din j, f j)).foldl store s = { s with din := din, rsp := p } ∧
      ∀ j ∈ js, din[j] = f j := by
  induction js using List.reverseRecOn with
  | nil => exact ⟨s.din, s.rsp, rfl, by simp⟩
  | append_singleton js i ih =>
    obtain ⟨din, p, hs, hdin⟩ := ih
    refine ⟨din.set i (f i), some ⟨false, 0⟩, ?_, fun j hj => ?_⟩
    · rw [List.map_append, List.foldl_append, hs]
      rfl
    · simp only [Fin.getElem_fin, Vector.getElem_set]
      split
      · next hij => rw [Fin.ext hij]
      · next hij => exact hdin j (by simp_all [Fin.ext_iff, eq_comm])

/-- `ldblk` puts the block into `DIN` and changes nothing else but the response (R79). -/
theorem runScript_ldblk (block : List Byte) (s : State) :
    ∃ ws din p, runScript (ldblk block) s = some (ws, { s with din := din, rsp := p }) ∧
      ∀ j : Fin 16, 4 * j.val < block.length → din[j] = wordAt block j := by
  obtain ⟨din, p, hs, hdin⟩ := foldl_store_din (blockWords block.length) (fun j => wordAt block j) s
  have hrun := runScript_writes (ps := (blockWords block.length).map fun j => (Reg.din j, wordAt block j))
    (by simp [accessOf]) s
  rw [List.map_map, hs] at hrun
  exact ⟨_, din, p, hrun, fun j hj => hdin j (mem_blockWords hj)⟩

/-- `rdblk` reads the words of `DOUT` and changes the response only (R79). -/
theorem runScript_rdblk (n : Nat) (s : State) :
    ∃ p, runScript (rdblk n) s = some ((blockWords n).map fun j => s.dout[j], { s with rsp := p }) := by
  obtain ⟨p, hp⟩ := runScript_reads (rs := (blockWords n).map Reg.dout) (by simp [accessOf]) s
  refine ⟨p, ?_⟩
  rw [List.map_map, List.map_map] at hp
  exact hp

/-- What one block of a live stream leaves of it (R133, R135): the counter one further, at most 64 bytes less, and the
stream live with its context as long as bytes are left. -/
structure AfterBlock (s t : State) : Prop where
  ctr : t.ctr = s.ctr + 1
  rem : t.rem.toNat = s.rem.toNat - 64
  ended : s.rem.toNat ≤ 64 → t.phase = .idle
  live : 64 < s.rem.toNat → t.phase = .stream ∧ t.akey = s.akey ∧ t.anonce = s.anonce

/-- The next block of a live stream, driven by the host, is `ctr_xor` of it (R136). -/
theorem driveBlock_stream {s : State} {block : List Byte} (hp : s.phase = .stream)
    (hlen : block.length = min 64 s.rem.toNat) :
    ∃ t, driveBlock block s = some (ctrXor s.akey s.anonce s.ctr block, t) ∧ AfterBlock s t := by
  obtain ⟨ws, din, p, hload, hdin⟩ := runScript_ldblk block s
  obtain ⟨t, hexec, ⟨hbytes, hctr, hrem, hend⟩, hframe⟩ := blkXorResult { s with din := din, rsp := p } hp
  obtain ⟨q, hread⟩ := runScript_rdblk block.length t
  have hcmd := expectOk_cmd rfl hexec (congrArg State.rsp hframe)
  have hout : (bytesLe ((blockWords block.length).map fun j => t.dout[j])).take block.length =
      ctrXor s.akey s.anonce s.ctr block := by
    rw [ctrXor_of_length_le (by omega)]
    refine bytesLe_blockWords_eq_zipWith (by omega) fun j k hjk => ?_
    rw [hbytes, if_pos (hlen ▸ hjk), hdin j (by omega)]
  refine ⟨{ t with rsp := q }, ?_, hctr, ?_, fun hle => ?_, fun hlt => ?_⟩
  · simpa [driveBlock, runScript_append, runScript_cons, hload, hcmd, hread, runScript] using hout
  · simp only at hrem ⊢
    omega
  · exact ((if_pos hle).mp hend).1
  · exact (if_neg (Nat.not_le.mpr hlt)).mp hend

/-! ### A whole stream -/

/-- `ctr_xor` block by block: the first 64 bytes, then the rest with the counter one further (R138). -/
theorem ctrXor_take_drop (k : Vector Word 8) (n : Vector Word 3) (c : Word) (d : List Byte) :
    ctrXor k n c d = ctrXor k n c (d.take 64) ++ ctrXor k n (c + 1) (d.drop 64) := by
  rcases le_or_gt d.length 64 with hle | hlt
  · rw [List.take_of_length_le hle, List.drop_eq_nil_of_le hle]
    exact (List.append_nil _).symm
  · have hcut := keystreamContinuity k n c 1 (d.take 64) (d.drop 64) (by simp; omega)
    rwa [List.take_append_drop] at hcut

/-- `m` blocks of a live stream over data that fills them give `ctr_xor` of the data and end the stream. -/
theorem driveStream_stream {m : Nat} {data : List Byte} {s : State} (hp : s.phase = .stream)
    (hpos : 0 < s.rem.toNat) (hlen : data.length = s.rem.toNat) (hm : blockCount data.length = m) :
    ∃ t, driveStream m data s = some (ctrXor s.akey s.anonce s.ctr data, t) ∧
      t.phase = .idle ∧ t.rem = 0 ∧ t.ctr = s.ctr + BitVec.ofNat 32 m := by
  rw [blockCount] at hm
  induction m generalizing data s with
  | zero => omega
  | succ m ih =>
    obtain ⟨t, hblock, ht⟩ := driveBlock_stream (block := data.take 64) hp (by rw [List.length_take, hlen])
    have hrem := ht.rem
    rw [ctrXor_take_drop]
    by_cases hlast : s.rem.toNat ≤ 64
    · obtain rfl : m = 0 := by omega
      have hdrop : data.drop 64 = [] := List.drop_eq_nil_of_le (by omega)
      have hzero : t.rem = 0 := BitVec.eq_of_toNat_eq (hrem.trans (Nat.sub_eq_zero_of_le hlast))
      refine ⟨t, ?_, ht.ended hlast, hzero, ht.ctr⟩
      rw [hdrop, driveStream, hblock]
      rfl
    · obtain ⟨hphase, hakey, hanonce⟩ := ht.live (Nat.lt_of_not_le hlast)
      have hdrop : (data.drop 64).length = data.length - 64 := List.length_drop
      obtain ⟨u, hrest, hidle, hzero, hctr⟩ :=
        ih (data := data.drop 64) hphase (by omega) (by omega) (by omega)
      refine ⟨u, ?_, hidle, hzero, ?_⟩
      · rw [driveStream, hblock, ← hakey, ← hanonce, ← ht.ctr]
        simp only [hrest]
      · rw [hctr, ht.ctr, BitVec.add_assoc, Nat.add_comm m, BitVec.ofNat_add]
        rfl

/-- Settles O56: the blocks of the data, by induction on their number. -/
theorem streamRealisesCounterMode : Obligations.StreamRealisesCounterMode := by
  intro s data hp hrem hlen
  have hpos : 0 < s.rem.toNat := Nat.pos_of_ne_zero fun h => hrem (BitVec.eq_of_toNat_eq h)
  exact driveStream_stream hp hpos hlen rfl

end Sys2Proof.Machine
end

section
/-! What `XCC_START` does (R150 to R152): an accepted start (O32). -/

namespace Sys2Proof.Machine

/-- Six valid bits make a complete 24-byte nonce (R23). -/
theorem nonceComplete_six {s : State} (h : s.noncev = 0b111111) : nonceComplete 6 s = true := by
  rw [nonceComplete_iff, h]
  decide

/-- Settles O32: the checks pass, and a start leaves what `startStream_eq` says. -/
theorem xccStartResult : Obligations.XccStartResult := by
  intro s hkeyv hnoncev
  have hkey : keyComplete s = true := (keyComplete_iff s).mpr hkeyv
  rw [exec_xccStart hkey (nonceComplete_six hnoncev), startStream_eq]
  split <;> rfl

end Sys2Proof.Machine
end

section
/-! The register files as the host fills them (R22, R23, R79): stores into every word of a file with valid bits, the
words of the byte sequence that `ldkey` and `ldnonce` store, and accepted scripts one after the other. -/

namespace Sys2Proof.Machine

/-! ### Stores into a file with valid bits -/

/-- The words and the valid bits of a file after stores of `f i` at the indices `i` of a list, in order. -/
def fill {n : Nat} (f : Fin n → Word) (is : List (Fin n)) (file : Vector Word n × BitVec n) :
    Vector Word n × BitVec n :=
  is.foldl (fun q i => (q.1.set i.val (f i), setValid q.2 i)) file

/-- A stored word is there, and valid. -/
theorem fill_getElem {n : Nat} (f : Fin n → Word) {is : List (Fin n)} (file : Vector Word n × BitVec n)
    {i : Fin n} (hi : i ∈ is) : (fill f is file).1[i] = f i ∧ (fill f is file).2.getLsbD i = true := by
  induction is using List.reverseRecOn with
  | nil => simp at hi
  | append_singleton is j ih =>
    rw [fill, List.foldl_append]
    change ((fill f is file).1.set j.val (f j))[i] = f i ∧ (setValid (fill f is file).2 j).getLsbD i = true
    rw [getLsbD_setValid _ _ _ i.isLt, Fin.getElem_fin, Vector.getElem_set]
    by_cases hij : i = j
    · simp [hij]
    · obtain ⟨hword, hvalid⟩ := ih (by simpa [hij] using hi)
      rw [if_neg (Fin.val_ne_of_ne (Ne.symm hij)), hvalid]
      exact ⟨hword, rfl⟩

/-- Stores at every index fill the file, whatever it held. -/
theorem fill_finRange {n : Nat} (f : Fin n → Word) (file : Vector Word n × BitVec n) :
    fill f (List.finRange n) file = (Vector.ofFn f, BitVec.allOnes n) := by
  have hget (i : Fin n) := fill_getElem f file (List.mem_finRange i)
  apply Prod.ext
  · refine Vector.ext fun i hi => ?_
    simpa using (hget ⟨i, hi⟩).1
  · refine BitVec.eq_of_getLsbD_eq fun i hi => ?_
    simpa [hi] using (hget ⟨i, hi⟩).2

section
variable {n : Nat} {reg : Fin n → Reg} {put : Vector Word n × BitVec n → Option Response → State}
  (hput : ∀ file p i v, store (put file p) (reg i, v) = put (file.1.set i.val v, setValid file.2 i) (some ⟨false, 0⟩))
include hput

/-- Stores into a file whose registers `reg i` write and validate word `i`, in a state given by the file and the
response. -/
theorem foldl_store_file (f : Fin n → Word) (is : List (Fin n)) (file : Vector Word n × BitVec n)
    (p : Option Response) :
    ∃ q, (is.map fun i => (reg i, f i)).foldl store (put file p) = put (fill f is file) q := by
  induction is generalizing file p with
  | nil => exact ⟨p, rfl⟩
  | cons i is ih =>
    rw [List.map_cons, List.foldl_cons, hput]
    exact ih _ _

/-- The script that stores every word of such a file completes it and changes nothing else but the response. -/
theorem runScript_load_file (hreg : ∀ i, accessOf (reg i) ≠ .readOnly ∧ reg i ≠ .cmd) (f : Fin n → Word)
    (file : Vector Word n × BitVec n) (p : Option Response) :
    ∃ ws q, runScript ((List.finRange n).map fun i => wr (reg i) (f i)) (put file p) =
      some (ws, put (Vector.ofFn f, BitVec.allOnes n) q) := by
  obtain ⟨q, hq⟩ := foldl_store_file hput f (List.finRange n) file p
  have hrun := runScript_writes (ps := (List.finRange n).map fun i => (reg i, f i)) (by simp [hreg]) (put file p)
  rw [List.map_map, hq, fill_finRange] at hrun
  exact ⟨_, q, hrun⟩

end

/-- Eight stores complete the key (R22). -/
theorem runScript_load_key (f : Fin 8 → Word) (s : State) :
    ∃ ws p, runScript ((List.finRange 8).map fun i => wr (.key i) (f i)) s =
      some (ws, { s with key := Vector.ofFn f, keyv := 0xFF, rsp := p }) :=
  runScript_load_file (reg := Reg.key) (put := fun file p => { s with key := file.1, keyv := file.2, rsp := p })
    (fun _ _ _ _ => rfl) (fun _ => ⟨nofun, nofun⟩) f (s.key, s.keyv) s.rsp

/-- Six stores complete the 24-byte nonce (R23). -/
theorem runScript_load_nonce (f : Fin 6 → Word) (s : State) :
    ∃ ws p, runScript ((List.finRange 6).map fun i => wr (.nonce i) (f i)) s =
      some (ws, { s with nonce := Vector.ofFn f, noncev := 0b111111, rsp := p }) :=
  runScript_load_file (reg := Reg.nonce) (put := fun file p => { s with nonce := file.1, noncev := file.2, rsp := p })
    (fun _ _ _ _ => rfl) (fun _ => ⟨nofun, nofun⟩) f (s.nonce, s.noncev) s.rsp

/-! ### The words of a byte sequence -/

/-- The first `n` words of a byte sequence, as `ldkey` and `ldnonce` store them (R79). -/
def wordsAt (n : Nat) (bytes : List Byte) : Vector Word n := Vector.ofFn fun i => wordAt bytes i

/-- They are `words_le` of a sequence of that length (R10). -/
theorem wordsAt_toList {n : Nat} {bytes : List Byte} (h : bytes.length = 4 * n) :
    (wordsAt n bytes).toList = wordsLe bytes := by
  rw [wordsAt, Vector.toList_ofFn]
  induction n generalizing bytes with
  | zero =>
    rw [List.eq_nil_of_length_eq_zero h]
    rfl
  | succ n ih =>
    match bytes, h with
    | b0 :: b1 :: b2 :: b3 :: rest, h =>
      rw [List.ofFn_succ, wordsLe_cons, ← ih (by simpa [Nat.mul_succ] using h)]
      rfl

/-! ### Scripts in sequence -/

/-- Two accepted scripts one after the other. -/
theorem runScript_trans {as bs : List Transaction} {s t u : State} {vs ws : List Word}
    (ha : runScript as s = some (vs, t)) (hb : runScript bs t = some (ws, u)) :
    runScript (as ++ bs) s = some (vs ++ ws, u) := by
  simp [runScript_append, ha, hb]

/-- An accepted command as a script of one line. -/
theorem runScript_cmd {i : Instr} {s t : State} {v : Word} (hi : i.wellFormed = true) (h : exec i s = .next t)
    (hrsp : t.rsp = some ⟨false, v⟩) : runScript [cmd i] s = some ([v], t) := by
  simp [runScript, expectOk_cmd hi h hrsp]

end Sys2Proof.Machine
end

section
/-! The two-step path of R153: what the script leaves before `CTR_START`, and that it starts the stream of `XCC_START`
(O36). -/

namespace Sys2Proof.Machine

/-- The first eight words of `OUT` after `HCC20` are the subkey (R121). -/
theorem map_padSubkey (z : Vector Word 8) :
    ((List.finRange 16).take 8).map (fun j => (padSubkey z)[j]) = z.toList := by
  apply List.ext_getElem
  · simp
  · intro i _ hi
    simpa using (padSubkey_getElem z ⟨i, by simpa using hi⟩).1

/-- `rdout 8` reads the subkey that `HCC20` left in `OUT`, and changes the response only (R79, R121). -/
theorem runScript_rdout_subkey {s : State} {z : Vector Word 8} (h : s.out = padSubkey z) :
    ∃ p, runScript (rdout 8) s = some (z.toList, { s with rsp := p }) := by
  obtain ⟨p, hp⟩ := runScript_reads (rs := ((List.finRange 16).take 8).map Reg.out) (by decide) s
  refine ⟨p, ?_⟩
  rw [List.map_map, List.map_map] at hp
  rw [← map_padSubkey z, ← h]
  exact hp

/-- The stores of a 12-byte nonce where the 24-byte nonce is complete already: no valid bit changes (R23). -/
theorem runScript_store_nonce12 {s : State} (hnoncev : s.noncev = 0b111111) (a b c : Word) :
    ∃ ws, runScript [wr (.nonce 0) a, wr (.nonce 1) b, wr (.nonce 2) c] s =
      some (ws, { s with nonce := #v[a, b, c, s.nonce[3], s.nonce[4], s.nonce[5]], rsp := some ⟨false, 0⟩ }) := by
  have hwords : ((s.nonce.set 0 a).set 1 b).set 2 c = #v[a, b, c, s.nonce[3], s.nonce[4], s.nonce[5]] := by
    refine Vector.ext fun i hi => ?_
    interval_cases i <;> simp
  have hvalid : setValid (setValid (setValid s.noncev 0) 1) 2 = s.noncev := by
    rw [hnoncev]
    decide
  have hrun := runScript_writes (ps := [(Reg.nonce 0, a), (.nonce 1, b), (.nonce 2, c)]) (by simp [accessOf]) s
  exact ⟨_, hrun.trans (congrArg₂ (fun n v => some (_, { s with nonce := n, noncev := v, rsp := some ⟨false, 0⟩ }))
    hwords hvalid)⟩

/-- `CTR_START` with the subkey in `KEY` and the split nonce in `NONCE[0..2]` ends as `XCC_START` does with the original
key and nonce, but for `KEY`, `NONCE` and `OUT`: both start the same stream with the same `ICTR` and `LEN` (R153). -/
theorem exec_ctrStart_of_split {s : State} (hkeyv : s.keyv = 0xFF) (hnoncev : s.noncev = 0b111111)
    {n : Vector Word 6} (hn : chachaNonce n = splitNonce s) (v : Vector Word 16) (p : Option Response) :
    ∃ t, t.rsp = some ⟨false, 0⟩ ∧ exec .xccStart s = .next t ∧
      exec .ctrStart { s with key := subkey s, nonce := n, out := v, rsp := p } =
        .next { t with key := subkey s, nonce := n, out := v } := by
  have hkey : keyComplete s = true := (keyComplete_iff s).mpr hkeyv
  have hnonce := nonceComplete_six hnoncev
  refine ⟨_, rfl, exec_xccStart hkey hnonce, ?_⟩
  rw [exec_ctrStart (s := { s with key := subkey s, nonce := n, out := v, rsp := p }) hkey
    (nonceComplete_of_le (m := 3) (by omega) hnonce)]
  simp only [nonce12, hn, startStream_eq]
  split <;> rfl

/-- Settles O36: the four scripts in order; both starts then have the same subkey, split nonce, `ICTR` and `LEN`. -/
theorem twoStepPathStartsSameStream : Obligations.TwoStepPathStartsSameStream := by
  intro s hkeyv hnoncev
  have hkey : keyComplete s = true := (keyComplete_iff s).mpr hkeyv
  have hhcc := exec_hcc20 hkey (nonceComplete_of_le (by omega) (nonceComplete_six hnoncev))
  obtain ⟨p, hread⟩ := runScript_rdout_subkey (s := respond ⟨false, 0⟩ (setOut (padSubkey (subkey s)) s)) rfl
  obtain ⟨us, q, hload⟩ := runScript_load_key (fun i => (subkey s)[i]) { s with out := padSubkey (subkey s), rsp := p }
  have hz : Vector.ofFn (fun i : Fin 8 => (subkey s)[i]) = subkey s := Vector.ofFn_getElem
  rw [hz, ← hkeyv] at hload
  obtain ⟨vs, hstore⟩ := runScript_store_nonce12
    (s := { s with key := subkey s, out := padSubkey (subkey s), rsp := q }) hnoncev 0 s.nonce[4] s.nonce[5]
  obtain ⟨t, hrsp, hxcc, hctr⟩ := exec_ctrStart_of_split hkeyv hnoncev
    (n := #v[0, s.nonce[4], s.nonce[5], s.nonce[3], s.nonce[4], s.nonce[5]]) rfl (padSubkey (subkey s))
    (some ⟨false, 0⟩)
  exact ⟨t, _, _, _, _, _, _, subkey s, hxcc, runScript_cmd rfl hhcc rfl, hread, runScript_trans hload hstore,
    runScript_cmd rfl hctr hrsp⟩

end Sys2Proof.Machine
end

section
/-! One XChaCha20 call of the host (R158 to R160): its start script, its stream and the final `CLEAR`, and with them
`encrypt` and `decrypt` (O57, O58). -/

namespace Sys2Proof.Machine

/-- The registers that `XCC_START` reads, loaded for a call with data of `l` bytes (R79, R202). -/
structure XccLoaded (key nonce : List Byte) (c : Word) (l : Nat) (s : State) : Prop where
  key : s.key = wordsAt 8 key
  keyv : s.keyv = 0xFF
  nonce : s.nonce = wordsAt 6 nonce
  noncev : s.noncev = 0b111111
  ictr : s.ictr = c
  len : s.len = BitVec.ofNat 32 l

/-- The loads of a call for `XCC_START` are accepted in every state (R79, R159). -/
theorem runScript_xccLoads (key : List Byte) {nonce : List Byte} (hnonce : nonce.length = 24) (c : Word) (l : Nat)
    (s : State) :
    ∃ ws t, runScript (ldkey key ++ ldnonce nonce ++ setupScript c l .xccStart) s = some (ws, t) ∧
      XccLoaded key nonce c l t := by
  have hld : ldnonce nonce = (List.finRange 6).map fun i => wr (.nonce i) (wordAt nonce i) := by
    rw [ldnonce, hnonce]
    rfl
  obtain ⟨us, p, hkey⟩ := runScript_load_key (fun i => wordAt key i) s
  obtain ⟨vs, q, hnon⟩ := runScript_load_nonce (fun i => wordAt nonce i)
    { s with key := wordsAt 8 key, keyv := 0xFF, rsp := p }
  have hset := runScript_writes (ps := [(Reg.ictr, c), (.len, BitVec.ofNat 32 l)]) (by simp [accessOf])
    { s with key := wordsAt 8 key, keyv := 0xFF, nonce := wordsAt 6 nonce, noncev := 0b111111, rsp := q }
  rw [← hld] at hnon
  exact ⟨_, _, runScript_trans (runScript_trans hkey hnon) hset, rfl, rfl, rfl, rfl, rfl, rfl⟩

/-- `XCC_START` after the loads of a call: a live stream of `l` bytes, unless it is empty (R152, R202). -/
theorem XccLoaded.exec_xccStart {key nonce : List Byte} {c : Word} {l : Nat} {s : State}
    (h : XccLoaded key nonce c l s) (hl : l < 2 ^ 32) :
    ∃ t, exec .xccStart s = .next t ∧ t.rsp = some ⟨false, 0⟩ ∧
      (l ≠ 0 → t.phase = .stream ∧ t.rem.toNat = l ∧
        t.akey = hchacha20 (wordsAt 8 key) (hchachaNonce (wordsAt 6 nonce)) ∧
        t.anonce = innerNonce (wordsAt 6 nonce) ∧ t.ctr = c) := by
  obtain ⟨hkey, hkeyv, hnonce, hnoncev, hictr, hlen⟩ := h
  have hnat : s.len.toNat = l := by rw [hlen, BitVec.toNat_ofNat, Nat.mod_eq_of_lt hl]
  refine ⟨_, xccStartResult s hkeyv hnoncev, ?_, fun hne => ?_⟩
  · split <;> rfl
  · rw [if_neg fun h => hne (by rw [← hnat, h]; rfl), ← hkey, ← hnonce]
    exact ⟨rfl, hnat, rfl, rfl, hictr⟩

/-- A call's whole stream, the empty one included: where there is data, a stream of its length is live (R135, R136). -/
theorem driveStream_of_live {data : List Byte} {s : State} {k : Vector Word 8} {n : Vector Word 3} {c : Word}
    (hlive : data.length ≠ 0 →
      s.phase = .stream ∧ s.rem.toNat = data.length ∧ s.akey = k ∧ s.anonce = n ∧ s.ctr = c) :
    ∃ t, driveStream (blockCount data.length) data s = some (ctrXor k n c data, t) := by
  by_cases hdata : data.length = 0
  · obtain rfl := List.eq_nil_of_length_eq_zero hdata
    exact ⟨s, rfl⟩
  · obtain ⟨hphase, hrem, rfl, rfl, rfl⟩ := hlive hdata
    obtain ⟨t, hdrive, -⟩ := driveStream_stream hphase (hrem ▸ Nat.pos_of_ne_zero hdata) hrem.symm rfl
    exact ⟨t, hdrive⟩

/-- The exact-length checks of R161, with a good key: the nonce's length decides. -/
theorem loadScript_of_key {key : List Byte} (hkey : key.length = 32) (c : KeyedCommand) (nonce : List Byte) :
    loadScript c key nonce =
      if nonce.length = nonceLength c then .ok (ldkey key ++ ldnonce nonce) else .error .invalidNonceLength := by
  simp [loadScript, hkey, ite_not]

/-- The unit's part of a call, from its three runs: the start script, the stream, the final `CLEAR`. -/
theorem runCall_eq {script : List Transaction} {data o : List Byte} {ws : List Word} {s t u : State}
    (hstart : runScript script s = some (ws, t)) (hdrive : driveStream (blockCount data.length) data t = some (o, u)) :
    runCall script data s = some (o, respond ⟨false, 0⟩ (clearAll u)) := by
  simp [runCall, hstart, hdrive, runScript_cmd rfl (exec_clear u) rfl]

/-- One call on a unit in any state (R159 steps 3 to 7, R160 steps 4 to 6): the data encrypted, and the reset values. -/
theorem driveCall_eq {key nonce data : List Byte} (hkey : key.length = 32) (hnonce : nonce.length = 24)
    (hdata : data.length < 2 ^ 32) (c : Word) (s : State) :
    ∃ t, driveCall key nonce c data s = .ok (xchacha20 (wordsAt 8 key) (wordsAt 6 nonce) data c, t) ∧
      ResetValues t := by
  have hclear := runScript_cmd rfl (exec_clear s) rfl
  obtain ⟨ws, r, hloads, hloaded⟩ := runScript_xccLoads key hnonce c data.length (respond ⟨false, 0⟩ (clearAll s))
  obtain ⟨t, hexec, hrsp, hlive⟩ := hloaded.exec_xccStart hdata
  have hstart := runScript_trans (runScript_trans hclear hloads) (runScript_cmd rfl hexec hrsp)
  obtain ⟨u, hdrive⟩ := driveStream_of_live hlive
  refine ⟨_, ?_, resetValues_clearAll (respond ⟨false, 0⟩ u)⟩
  have hload := (loadScript_of_key hkey .xccStart nonce).trans (if_pos hnonce)
  simp only [driveCall, callScript, hload, if_neg (Nat.not_le.mpr hdata), keyedInstr]
  rw [List.append_assoc _ _ (setupScript _ _ _), runCall_eq hstart hdrive]
  rfl

/-- `encrypt` with a good key and a good draw: one call with counter 0, then the nonce (R158, R159). -/
theorem encrypt_eq {m key nonce : List Byte} (hkey : key.length = 32) (hnonce : nonce.length = 24)
    (hm : m.length < 2 ^ 32) (s : State) :
    ∃ t, encrypt m key (some nonce) s = .ok (xchacha20 (wordsAt 8 key) (wordsAt 6 nonce) m 0 ++ nonce, t) ∧
      ResetValues t := by
  obtain ⟨t, hcall, ht⟩ := driveCall_eq hkey hnonce hm 0 s
  refine ⟨t, ?_, ht⟩
  simp only [encrypt, hkey, hnonce, hcall, ne_eq, not_true_eq_false, if_false]

/-- `decrypt` of a body with the 24 nonce bytes behind it: one call with counter 0 on the body (R160). -/
theorem decrypt_append {body key nonce : List Byte} (hkey : key.length = 32) (hnonce : nonce.length = 24) (s : State) :
    decrypt (body ++ nonce) key s = driveCall key nonce 0 body s := by
  simp [decrypt, hkey, hnonce]

/-- Settles O57: the unit's part is `driveCall_eq`, with counter 0. -/
theorem encryptGivesPayload : Obligations.EncryptGivesPayload := by
  intro s m key nonce hkey hnonce hm
  obtain ⟨t, henc, ht⟩ := encrypt_eq hkey hnonce hm s
  refine ⟨wordsAt 8 key, wordsAt 6 nonce, t, wordsAt_toList hkey, wordsAt_toList hnonce, henc, ?_, ht⟩
  rw [List.length_append, (counterModeSelfInverse.2 _ _ 0 m).1, hnonce]

/-- Settles O58: the second call has the same key, nonce and counter, and XChaCha20 is its own inverse (R155). -/
theorem decryptInvertsEncrypt : Obligations.DecryptInvertsEncrypt := by
  intro s s' m key nonce hkey hnonce hm
  obtain ⟨hlength, hinverse⟩ := counterModeSelfInverse.2 (wordsAt 8 key) (wordsAt 6 nonce) 0 m
  obtain ⟨t, henc, -⟩ := encrypt_eq hkey hnonce hm s
  obtain ⟨t', hdec, -⟩ := driveCall_eq hkey hnonce (hlength.trans_lt hm) 0 s'
  rw [hinverse] at hdec
  exact ⟨_, t, t', henc, (decrypt_append hkey hnonce s').trans hdec⟩

end Sys2Proof.Machine
end

section
/-! The checks of the host's procedures on their inputs (R159 to R161, R191): each failed check gives the call its own
error before any transaction (O60). -/

namespace Sys2Proof.Machine

theorem loadScript_bad_key {key : List Byte} (hkey : key.length ≠ 32) (c : KeyedCommand) (nonce : List Byte) :
    loadScript c key nonce = .error .invalidKeyLength :=
  if_pos hkey

/-- A failed check of the loads is the error of the whole procedure for long messages, with any number of streams. -/
theorem driveChunks_of_loadScript_error {key nonce : List Byte} {e : DriverError}
    (h : loadScript .xccStart key nonce = .error e) (b k : Nat) (c : Word) (data : List Byte) (s : State) :
    driveChunks b k key nonce c data s = .error e := by
  cases k with
  | zero => simp only [driveChunks, h]
  | succ k => simp only [driveChunks, driveCall, callScript, h]

/-- Settles O60: each clause is one check of its procedure. -/
theorem driverValidatesInputs : Obligations.DriverValidatesInputs := by
  intro s m p key nonce data draw b k c
  refine ⟨fun hkey => ⟨if_pos hkey, if_pos hkey, ?chunks, fun c => loadScript_bad_key hkey c nonce⟩,
    fun hkey => ?loads, fun hkey hnonce => ?chunksNonce, fun hkey hdraw => ?random, fun hkey hp => ?malformed⟩
  case chunks => exact driveChunks_of_loadScript_error (loadScript_bad_key hkey _ _) b k c data s
  case loads =>
    intro q hq
    have hlength : ∀ q ∈ [(KeyedCommand.cc20Block, 12), (.hcc20, 16), (.ctrStart, 12), (.xccStart, 24)],
        nonceLength q.1 = q.2 := by decide
    rw [loadScript_of_key hkey, hlength q hq]
  case chunksNonce =>
    exact driveChunks_of_loadScript_error ((loadScript_of_key hkey _ _).trans (if_neg hnonce)) b k c data s
  case random =>
    cases draw with
    | none => simp [encrypt, hkey]
    | some d => simp [encrypt, hkey, hdraw d rfl]
  case malformed => simp [decrypt, hkey, hp]

end Sys2Proof.Machine
end

section
/-! The system commands (R170 to R172): each is its equation in Laws/Commands.lean, with the update and the response
written out as fields of the state (O18 to O20). -/

namespace Sys2Proof.Machine

/-- Settles O18: `NOP` only presents its response (R170). -/
theorem nopResult : Obligations.NopResult := by
  intro s
  rw [exec_nop, respond]

/-- Settles O19: beside the response, `ERRCODE` is the one field `CLRERR` writes (R171, R187). -/
theorem clrerrResult : Obligations.ClrerrResult := by
  intro s
  rw [exec_clrerr, respond, setErrcode]

/-- Settles O20: of the state before `CLEAR` only the ports stay, and its response replaces the old one (R172). -/
theorem clearResult : Obligations.ClearResult := by
  intro s
  rw [exec_clear, respond, clearAll]

end Sys2Proof.Machine
end

section
/-! Which error a transaction reports (R183, R184) and what a rejection leaves (R181): the first error in the order of
R184 decides the outcome (O38); the key is checked before the nonce (O37); a response `ERR` had no other effect (O39). -/

namespace Sys2Proof.Machine

/-! ### The outcome that an error decides -/

/-- The outcome of a transaction on `s` that reports this error (R181), or is answered `OK` where there is none. -/
def Reports (e : Option ErrorKind) (s : State) (r : Result) : Prop :=
  match e with
  | some e => r = .next (rejected (errorCode e) s)
  | none => ∃ t v, r = .next t ∧ t.rsp = some ⟨false, v⟩

theorem reports_some_iff {e : ErrorKind} {s : State} {r : Result} :
    Reports (some e) s r ↔ r = .next (rejected (errorCode e) s) := Iff.rfl

theorem reports_reject (e : ErrorKind) (s : State) : Reports (some e) s (.next (reject e s)) := rfl

theorem reports_respond (v : Word) (s t : State) : Reports none s (.next (respond ⟨false, v⟩ t)) := ⟨_, v, rfl, rfl⟩

/-! ### The key and nonce checks -/

theorem loadError_of_incomplete_key {m : Nat} {s : State} (hkey : s.keyv ≠ 0xFF#8) : loadError m s = some .keyLen :=
  if_pos hkey

theorem loadError_of_unwritten_nonce {m : Nat} {s : State} (hm : m ≤ 6) (hkey : s.keyv = 0xFF#8)
    (hnonce : ∃ j < m, s.noncev.getLsbD j = false) : loadError m s = some .nonceLen := by
  obtain ⟨j, hj, hbit⟩ := hnonce
  rw [loadError, if_neg (not_not.mpr hkey), if_pos ⟨⟨j, hj.trans_le hm⟩, hj, hbit⟩]

theorem loadError_of_complete {m : Nat} {s : State} (hkey : s.keyv = 0xFF#8)
    (hnonce : ¬∃ j < m, s.noncev.getLsbD j = false) : loadError m s = none := by
  rw [loadError, if_neg (not_not.mpr hkey), if_neg fun ⟨j, hj, hbit⟩ => hnonce ⟨j, hj, hbit⟩]

/-- The checks of the model are those of R183, in the order of R184, for the nonces there are. -/
theorem withKeyAndNonce_reports {m : Nat} (hm : m ≤ 6) (f : State → State) (s : State) :
    Reports (loadError m s) s (withKeyAndNonce m f s) := by
  obtain ⟨hk, e⟩ | ⟨hk, hn, e⟩ | ⟨hk, hn, e⟩ := withKeyAndNonce_cases m f s <;> rw [e]
  · rw [loadError_of_incomplete_key fun h => by simp [(keyComplete_iff s).mpr h] at hk]
    exact reports_reject _ s
  · rw [loadError_of_unwritten_nonce hm ((keyComplete_iff s).mp hk) ((nonceComplete_eq_false_iff m s).mp hn)]
    exact reports_reject _ s
  · have written : ¬∃ j < m, s.noncev.getLsbD j = false := by simp [← nonceComplete_eq_false_iff, hn]
    rw [loadError_of_complete ((keyComplete_iff s).mp hk) written]
    exact reports_respond 0 s _

/-! ### Commands and transactions -/

/-- A well-formed command reports the error that R183 gives it. -/
theorem exec_reports {i : Instr} (hi : i.wellFormed = true) (s : State) :
    Reports (commandError i s) s (exec i s) := by
  cases i with
  | nop => rw [exec_nop]; exact reports_respond 0 s _
  | clrerr => rw [exec_clrerr]; exact reports_respond 0 s _
  | clear => rw [exec_clear]; exact reports_respond 0 s _
  | dround => rw [exec_dround]; exact reports_respond 0 s _
  | permute => rw [exec_permute]; exact reports_respond 0 s _
  | qr a b c d =>
    rw [exec_qr hi]
    exact reports_respond 0 s _
  | cc20Block => rw [exec_cc20Block_checked]; exact withKeyAndNonce_reports (by decide) _ s
  | hcc20 => rw [exec_hcc20_checked]; exact withKeyAndNonce_reports (by decide) _ s
  | ctrStart => rw [exec_ctrStart_checked]; exact withKeyAndNonce_reports (by decide) _ s
  | xccStart => rw [exec_xccStart_checked]; exact withKeyAndNonce_reports (by decide) _ s
  | blkXor =>
    cases hp : s.phase with
    | idle =>
      rw [commandError, if_pos hp, exec_blkXor_idle hp]
      exact reports_reject _ s
    | stream =>
      rw [commandError, if_neg (by simp [hp]), exec_blkXor_updates hp]
      exact reports_respond 0 s _

/-- A word written to `CMD` is decoded before the command's own checks (R184). -/
theorem runCommand_reports (w : Word) (s : State) : Reports (wordError w s) s (runCommand w s) := by
  cases hd : decode w with
  | error e =>
    rw [runCommand_illegal hd, wordError, hd]
    exact reports_reject _ s
  | ok i =>
    rw [runCommand_legal hd, wordError, hd]
    exact exec_reports (encodeOfDecode w i hd).1 s

/-- No other register stands at the offset of `CMD` (R54). -/
theorem regOffset_eq_cmd_iff {r : Reg} : regOffset r = 0x008#9 ↔ r = .cmd := by
  constructor
  · intro h
    have hat : regAt (regOffset r) = regAt (regOffset .cmd) := congrArg regAt h
    rwa [regAt_regOffset, regAt_regOffset, Option.some.injEq] at hat
  · rintro rfl
    rfl

theorem memRead_reports (a : Offset) (n : AccessSize) (s : State) :
    Reports (firstError (.read a n) s) s (memRead a n s) := by
  cases h : readTarget a n with
  | none =>
    rw [firstError, if_pos ((readTarget_eq_none_iff a n).mp h), memRead_rejected h]
    exact reports_reject _ s
  | some r =>
    rw [firstError, if_neg (by simp [← readTarget_eq_none_iff, h]), memRead_reg h]
    exact reports_respond _ s s

theorem memWrite_reports (a : Offset) (n : AccessSize) (v : Word) (s : State) :
    Reports (firstError (.write a n v) s) s (memWrite a n v s) := by
  cases h : writeTarget a n with
  | none =>
    rw [firstError, if_pos ((writeTarget_eq_none_iff a n).mp h), memWrite_rejected h]
    exact reports_reject _ s
  | some r =>
    rw [firstError, if_neg (by simp [← writeTarget_eq_none_iff, h])]
    obtain ⟨-, rfl, -⟩ := writeTarget_some h
    by_cases hr : r = .cmd
    · subst hr
      rw [if_pos (regOffset_eq_cmd_iff.mpr rfl), memWrite_cmd h]
      exact runCommand_reports v s
    · rw [if_neg (mt regOffset_eq_cmd_iff.mp hr), memWrite_reg h hr]
      exact reports_respond 0 s _

/-- Settles O38: `Reports` names the two outcomes of the statement. -/
theorem firstErrorReported : Obligations.FirstErrorReported := by
  intro s tr
  cases tr with
  | read a n => exact memRead_reports a n s
  | write a n v => exact memWrite_reports a n v s

/-- Settles O37: what each of the commands reports is `loadError` of its nonce's length. -/
theorem keyThenNonceChecked : Obligations.KeyThenNonceChecked := by
  intro s p hp
  have hlength : p.2 ≤ 6 := by revert p; decide
  have hlegal : p.1.wellFormed = true := by revert p; decide
  have hchecks : commandError p.1 s = loadError p.2 s := by
    simp only [List.mem_cons, List.not_mem_nil, or_false] at hp
    obtain rfl | rfl | rfl | rfl := hp <;> rfl
  have hreports : Reports (loadError p.2 s) s (exec p.1 s) := hchecks ▸ exec_reports hlegal s
  constructor
  · intro hkey
    exact reports_some_iff.mp (loadError_of_incomplete_key hkey ▸ hreports)
  · intro hkey hnonce
    exact reports_some_iff.mp (loadError_of_unwritten_nonce hlength hkey hnonce ▸ hreports)

/-- Settles O39: a response `ERR` is that of a reported error, whose code is not 0. -/
theorem rejectionAllOrNothing : Obligations.RejectionAllOrNothing := by
  intro s t tr v h hrsp
  have hreports : Reports (firstError tr s) s (transact tr s) := firstErrorReported s tr
  rw [h] at hreports
  cases he : firstError tr s with
  | some e =>
    rw [he] at hreports
    cases hreports
    exact ⟨errorCode e, errorCode_ne_zero e, rfl⟩
  | none =>
    rw [he] at hreports
    obtain ⟨u, w, hu, hok⟩ := hreports
    cases hu
    simp [hrsp] at hok

end Sys2Proof.Machine
end

section
/-! A long message as the host cuts it (R138, R211): each stream is one call on the next piece, with the counter advanced
by the blocks of a piece (O59). -/

namespace Sys2Proof.Machine

/-- XChaCha20 of a message cut after `64 b` bytes: the rest goes on with the counter `b` further (R138, R150). -/
theorem xchacha20_take_drop (k : Vector Word 8) (n : Vector Word 6) (c : Word) (b : Nat) (d : List Byte) :
    xchacha20 k n d c =
      xchacha20 k n (d.take (64 * b)) c ++ xchacha20 k n (d.drop (64 * b)) (add32 c (BitVec.ofNat 32 b)) := by
  rcases le_or_gt d.length (64 * b) with hle | hlt
  · rw [List.take_of_length_le hle, List.drop_eq_nil_of_le hle]
    exact (List.append_nil _).symm
  · have hcut := keystreamContinuity (hchacha20 k (hchachaNonce n)) (innerNonce n) c b (d.take (64 * b))
      (d.drop (64 * b)) (by simp; omega)
    rwa [List.take_append_drop] at hcut

/-- Enough streams carry the whole message, whatever state the unit is in. -/
theorem driveChunks_eq {b : Nat} {key nonce : List Byte} (hkey : key.length = 32) (hnonce : nonce.length = 24)
    (hb : 64 * b < 2 ^ 32) {m : Nat} {data : List Byte} (hdata : data.length ≤ m * (64 * b)) (c : Word) (s : State) :
    ∃ t, driveChunks b m key nonce c data s = .ok (xchacha20 (wordsAt 8 key) (wordsAt 6 nonce) data c, t) := by
  induction m generalizing data c s with
  | zero =>
    obtain rfl : data = [] := List.eq_nil_of_length_eq_zero (by omega)
    have hload := (loadScript_of_key hkey .xccStart nonce).trans (if_pos hnonce)
    refine ⟨s, ?_⟩
    rw [driveChunks, hload]
    rfl
  | succ m ih =>
    have hpiece : (data.take (64 * b)).length < 2 ^ 32 := (List.length_take_le _ _).trans_lt hb
    have hrest : (data.drop (64 * b)).length ≤ m * (64 * b) := by
      rw [List.length_drop, Nat.sub_le_iff_le_add]
      exact hdata.trans_eq (Nat.succ_mul m (64 * b))
    obtain ⟨t, hcall, -⟩ := driveCall_eq hkey hnonce hpiece c s
    obtain ⟨u, hchunks⟩ := ih hrest (add32 c (BitVec.ofNat 32 b)) t
    refine ⟨u, ?_⟩
    rw [xchacha20_take_drop _ _ _ b]
    simp only [driveChunks, hcall, hchunks]

/-- Settles O59: the key and nonce words are those the host loads. -/
theorem longMessageInChunks : Obligations.LongMessageInChunks := by
  intro s b m c key nonce data hkey hnonce _ hb hdata
  obtain ⟨t, ht⟩ := driveChunks_eq hkey hnonce hb hdata c s
  exact ⟨wordsAt 8 key, wordsAt 6 nonce, t, wordsAt_toList hkey, wordsAt_toList hnonce, ht⟩

end Sys2Proof.Machine
end

section
/-! Reset and the idle step (R200, R204): the step with no input and with a reset input (O12, O16), and what the commands
and the reads do on the reset state (O17). -/

namespace Sys2Proof.Machine

/-- Settles O12: with no input the step is the idle one. -/
theorem idleUnitUnchanged : Obligations.IdleUnitUnchanged := fun _ => step_no_input

/-- Settles O16: the later inputs are the one field that `resetUnit` sets. -/
theorem resetInputLeavesResetState : Obligations.ResetInputLeavesResetState := fun _ _ => step_reset

/-! ### The all-zero working state of reset -/

theorem qr_zero : qr 0 0 0 0 = ⟨0, 0, 0, 0⟩ := by decide

theorem qrAt_reset_x (i j k l : Fin 16) : qrAt State.reset.x i j k l = State.reset.x := by
  have hzero : ∀ m : Fin 16, State.reset.x[m] = 0 := resetAndClearValues.1.x
  refine Vector.ext fun m hm => ?_
  have hword := qrAt_getElem State.reset.x i j k l ⟨m, hm⟩
  simp only [hzero, qr_zero, ite_self] at hword
  exact hword.trans (hzero ⟨m, hm⟩).symm

theorem dround_reset_x : dround State.reset.x = State.reset.x := by
  simp only [dround, columnRound, diagonalRound, qrAt_reset_x]

theorem permute_reset_x : permute State.reset.x = State.reset.x := by
  rw [permute_eq_iterate, Function.iterate_fixed dround_reset_x]

/-! ### The reset state -/

/-- Every readable register but `ID` reads 0 after reset (R39). -/
theorem readReg_reset {r : Reg} (hr : r ≠ .id) : readReg r State.reset = 0 := by
  have values : ResetValues State.reset := resetAndClearValues.1
  cases r with
  | id => exact absurd rfl hr
  | status => exact values.status
  | cmd | key i => rfl
  | ictr => exact values.ictr
  | len => exact values.len
  | ctr => exact values.ctr
  | rem => exact values.rem
  | nonce i => exact values.nonce i
  | x i => exact values.x i
  | out i => exact values.out i
  | din i => exact values.din i
  | dout i => exact values.dout i

/-- Settles O17: the checks fail as R183 says, and the all-zero `X` is fixed by the permutation and its parts. -/
theorem commandsOnResetState : Obligations.CommandsOnResetState := by
  refine ⟨blkXorRejectedWhenIdle State.reset rfl, fun i hi => ?keyed, fun a b c d h => ?qr, fun i hi => ?rounds,
    fun r _ hr => readReg_reset hr⟩
  case keyed =>
    have hlegal : i.wellFormed = true := by revert i; decide
    have hkey : commandError i State.reset = some .keyLen := by revert i; decide
    exact reports_some_iff.mp (hkey ▸ exec_reports hlegal State.reset)
  case qr =>
    rw [exec_qr ((pairwiseDistinct_iff a b c d).mpr h), qrAt_reset_x]
    rfl
  case rounds =>
    simp only [List.mem_cons, List.not_mem_nil, or_false] at hi
    obtain rfl | rfl := hi
    · rw [exec_dround, dround_reset_x]
      rfl
    · rw [exec_permute, permute_reset_x]
      rfl

end Sys2Proof.Machine
end
